-- ==== Sys2Proof/Word.lean ====
section
/-!
DEFINITION. The values the machine computes with: 32-bit words, 6-bit register indices, 64-bit canonical
instruction words (spec 00_scope.md R6, R8; 30_encoding.md R81), and the closed set of 21 mnemonics
(30_encoding.md R80, R82).
-/

namespace Sys2Proof

/-- A value of XLEN = 32 bits: a register, a data-memory word, an immediate or a pc (00_scope.md R6, R8). -/
abbrev Word := BitVec 32

/-- A register index as an instruction record and a latch hold it: 6 bits (30_encoding.md R81, 10_state.md R33). -/
abbrev Reg := BitVec 6

/-- A canonical instruction word: 64 bits, bit 63 the most significant (30_encoding.md R81). -/
abbrev CodeWord := BitVec 64

/-- `s32(v)`: a word read as a two's-complement integer (00_scope.md R8). -/
abbrev s32 (v : Word) : Int := v.toInt

/-- `u32(v)`: a word read as an unsigned integer (00_scope.md R8). -/
abbrev u32 (v : Word) : Nat := v.toNat

/-- `wrap32(i)`: the word congruent to `i` modulo 2^32 (00_scope.md R8). -/
abbrev wrap32 (i : Int) : Word := BitVec.ofInt 32 i

/-- The mnemonics: the "enum of supported opcodes" of an instruction record (30_encoding.md R80, R82). -/
inductive Op where
  | nop | add | sub | and | or | xor | addl | subl | movc | load | store | cmp
  | bz | bnz | bp | bnp | bn | bnn | jump | jal | halt
deriving DecidableEq, Repr

end Sys2Proof
end

