-- ==== Sys2Proof/Config.lean ====
section
/-!
DEFINITION. What an implementation of the block fixes: the parameters of spec 00_scope.md R6. The spec says a
model takes each as an argument with a default value; here they travel in `State` (log 1), and `Config.default`
holds the spec's defaults (log 4). No opaque value is needed: the spec leaves no value open that a rule reads.
-/

namespace Sys2Proof

/-- The implementation parameters of 00_scope.md R6. CODE_LEN is the length of the code memory itself. -/
structure Config where
  /-- NUM_REGS, the number of general registers. -/
  numRegs : Nat
  /-- DATA_WORDS, the number of data-memory words. -/
  dataWords : Nat
  /-- CODE_BASE, the pc value of the first code record. -/
  codeBase : Nat
  /-- W, the pc increment per instruction. -/
  stride : Nat
  /-- BTB_ENTRIES, the number of BTB entries. -/
  btbEntries : Nat
deriving DecidableEq, Repr

/-- The default values of 00_scope.md R6. -/
def Config.default : Config :=
  { numRegs := 16, dataWords := 4096, codeBase := 4000, stride := 4, btbEntries := 4 }

/-- The constraints of 00_scope.md R6 on the parameters. -/
def Config.wf (c : Config) : Bool :=
  decide (1 ≤ c.numRegs ∧ c.numRegs ≤ 64 ∧ 1 ≤ c.dataWords ∧ c.dataWords ≤ 2 ^ 31 ∧
    c.codeBase < 2 ^ 31 ∧ 1 ≤ c.stride ∧ 1 ≤ c.btbEntries)

/-- The constraint of 00_scope.md R6 on a program of `len` records: CODE_BASE + CODE_LEN*W <= 2^31. -/
def Config.fits (c : Config) (len : Nat) : Bool :=
  decide (c.codeBase + len * c.stride ≤ 2 ^ 31)

end Sys2Proof
end

