-- ==== Sys2Proof/Syntax.lean ====
section
/-!
DEFINITION. The instruction set: `Instr`, one constructor per row of spec/opcode_table.json with the operands its
format uses (30_encoding.md R83), and the instruction record of R80, which also carries the fields its format
leaves unused.
-/

namespace Sys2Proof

/-- An instruction with the operands of its format (30_encoding.md R83). -/
inductive Instr where
  /-- NOP, format N (44_system.md R241). -/
  | nop
  /-- ADD Rd,Rs1,Rs2, format RRR (41_alu.md R161). -/
  | add (rd rs1 rs2 : Reg)
  /-- SUB Rd,Rs1,Rs2, format RRR (R162). -/
  | sub (rd rs1 rs2 : Reg)
  /-- AND Rd,Rs1,Rs2, format RRR (R163). -/
  | and (rd rs1 rs2 : Reg)
  /-- OR Rd,Rs1,Rs2, format RRR (R164). -/
  | or (rd rs1 rs2 : Reg)
  /-- XOR Rd,Rs1,Rs2, format RRR (R165). -/
  | xor (rd rs1 rs2 : Reg)
  /-- ADDL Rd,Rs1,#imm, format RRI (R166). -/
  | addl (rd rs1 : Reg) (imm : Word)
  /-- SUBL Rd,Rs1,#imm, format RRI (R167). -/
  | subl (rd rs1 : Reg) (imm : Word)
  /-- MOVC Rd,#imm, format RI (R168). -/
  | movc (rd : Reg) (imm : Word)
  /-- LOAD Rd,Rs1,#imm, format RRI (42_load_store.md R191). -/
  | load (rd rs1 : Reg) (imm : Word)
  /-- STORE Rs2,Rs1,#imm, format SRI: rs1 is the base and rs2 the data (R192). -/
  | store (rs1 rs2 : Reg) (imm : Word)
  /-- CMP Rs1,Rs2, format CRR (41_alu.md R169). -/
  | cmp (rs1 rs2 : Reg)
  /-- BZ #imm, format BI (43_control.md R211). -/
  | bz (imm : Word)
  /-- BNZ #imm, format BI (R212). -/
  | bnz (imm : Word)
  /-- BP #imm, format BI (R213). -/
  | bp (imm : Word)
  /-- BNP #imm, format BI (R214). -/
  | bnp (imm : Word)
  /-- BN #imm, format BI (R215). -/
  | bn (imm : Word)
  /-- BNN #imm, format BI (R216). -/
  | bnn (imm : Word)
  /-- JUMP Rs1,#imm, format JRI (R217). -/
  | jump (rs1 : Reg) (imm : Word)
  /-- JAL Rd,Rs1,#imm, format RRI (R218). -/
  | jal (rd rs1 : Reg) (imm : Word)
  /-- HALT, format N (44_system.md R240). -/
  | halt
deriving DecidableEq, Repr

/-- An instruction record, what code memory holds (30_encoding.md R80). A field that the mnemonic's format does
not use is don't-care and is kept as the loader delivered it (R85). -/
structure Record where
  op  : Op
  rd  : Reg
  rs1 : Reg
  rs2 : Reg
  imm : Word
deriving DecidableEq, Repr

/-- The mnemonic of an instruction. -/
def Instr.op : Instr → Op
  | .nop => .nop
  | .add .. => .add
  | .sub .. => .sub
  | .and .. => .and
  | .or .. => .or
  | .xor .. => .xor
  | .addl .. => .addl
  | .subl .. => .subl
  | .movc .. => .movc
  | .load .. => .load
  | .store .. => .store
  | .cmp .. => .cmp
  | .bz _ => .bz
  | .bnz _ => .bnz
  | .bp _ => .bp
  | .bnp _ => .bnp
  | .bn _ => .bn
  | .bnn _ => .bnn
  | .jump .. => .jump
  | .jal .. => .jal
  | .halt => .halt

end Sys2Proof
end

