-- ==== Sys2Proof/WellFormed.lean ====
section
/-!
DEFINITION. Which instructions a block with NUM_REGS registers admits: every USED register field names a register
(30_encoding.md R80, R86, R89). Immediates are any 32-bit value (R84), and unused fields any value (R85).
-/

namespace Sys2Proof

/-- The used register fields of an instruction, `USED_REG_FIELDS` of 30_encoding.md R89: the union of the
destination and source columns of R83, in the order rd, rs1, rs2. -/
def Instr.usedRegs : Instr → List Reg
  | .add rd rs1 rs2 | .sub rd rs1 rs2 | .and rd rs1 rs2 | .or rd rs1 rs2 | .xor rd rs1 rs2 => [rd, rs1, rs2]
  | .addl rd rs1 _ | .subl rd rs1 _ | .load rd rs1 _ | .jal rd rs1 _ => [rd, rs1]
  | .movc rd _ => [rd]
  | .store rs1 rs2 _ | .cmp rs1 rs2 => [rs1, rs2]
  | .jump rs1 _ => [rs1]
  | .bz _ | .bnz _ | .bp _ | .bnp _ | .bn _ | .bnn _ | .nop | .halt => []

/-- A register index names a register of a file of `numRegs` registers (30_encoding.md R80). -/
def Reg.inFile (numRegs : Nat) (r : Reg) : Bool := decide (r.toNat < numRegs)

/-- The instruction is legal on a block with `numRegs` registers: R89's last check passes. -/
def Instr.wf (numRegs : Nat) (i : Instr) : Bool := i.usedRegs.all (Reg.inFile numRegs)

end Sys2Proof
end

