-- ==== Sys2Proof/Decode.lean ====
section
/-!
DEFINITION. Decoding a canonical word to an instruction record or to a load-time refusal, total over all 2^64
words (30_encoding.md R81, R82, R86, R89), the loader's checks of a whole program (60_exceptions.md R255,
70_reset_and_hazards.md R284), and after them the encoder and the assembler spelling (R81, R90).
-/

namespace Sys2Proof

/-- The load-time failures of 60_exceptions.md R255. With any of them no block is created and no cycle runs. -/
inductive LoadFailure where
  /-- CONSTRUCTION_FAILURE: the program is empty (CODE_LEN = 0) or does not fit the code space (log 13). -/
  | constructionFailure
  /-- LOAD_BAD_OPCODE: opc in 21..63. -/
  | badOpcode
  /-- LOAD_RESERVED_BITS: the reserved byte is not 0. -/
  | reservedBits
  /-- LOAD_BAD_REGISTER: a used register field >= NUM_REGS. -/
  | badRegister
deriving DecidableEq, Repr

/-! ### Fields of the canonical word (30_encoding.md R81) -/

/-- `opc = word[63:58]`. -/
def opcField (w : CodeWord) : BitVec 6 := w.extractLsb' 58 6

/-- `rd = word[57:52]`. -/
def rdField (w : CodeWord) : Reg := w.extractLsb' 52 6

/-- `rs1 = word[51:46]`. -/
def rs1Field (w : CodeWord) : Reg := w.extractLsb' 46 6

/-- `rs2 = word[45:40]`. -/
def rs2Field (w : CodeWord) : Reg := w.extractLsb' 40 6

/-- `rsv = word[39:32]`, reserved, must be 0. -/
def rsvField (w : CodeWord) : BitVec 8 := w.extractLsb' 32 8

/-- `imm = word[31:0]`, unscaled (R84). -/
def immField (w : CodeWord) : Word := w.extractLsb' 0 32

/-- The opcode table of 30_encoding.md R82: entry k is the mnemonic with opcode number k. -/
def opTable : List Op :=
  [.nop, .add, .sub, .and, .or, .xor, .addl, .subl, .movc, .load, .store, .cmp,
   .bz, .bnz, .bp, .bnp, .bn, .bnn, .jump, .jal, .halt]

/-- `MNEMONIC(opc)`, none for the unrecognized opcode values 21 to 63 (30_encoding.md R82, R86). -/
def mnemonicOf (opc : BitVec 6) : Option Op := opTable[opc.toNat]?

/-- The instruction a record stands for: the operands its format uses, the other fields dropped (R83, R85). -/
def Record.instr (r : Record) : Instr :=
  match r.op with
  | .nop => .nop
  | .add => .add r.rd r.rs1 r.rs2
  | .sub => .sub r.rd r.rs1 r.rs2
  | .and => .and r.rd r.rs1 r.rs2
  | .or => .or r.rd r.rs1 r.rs2
  | .xor => .xor r.rd r.rs1 r.rs2
  | .addl => .addl r.rd r.rs1 r.imm
  | .subl => .subl r.rd r.rs1 r.imm
  | .movc => .movc r.rd r.imm
  | .load => .load r.rd r.rs1 r.imm
  | .store => .store r.rs1 r.rs2 r.imm
  | .cmp => .cmp r.rs1 r.rs2
  | .bz => .bz r.imm
  | .bnz => .bnz r.imm
  | .bp => .bp r.imm
  | .bnp => .bnp r.imm
  | .bn => .bn r.imm
  | .bnn => .bnn r.imm
  | .jump => .jump r.rs1 r.imm
  | .jal => .jal r.rd r.rs1 r.imm
  | .halt => .halt

/-- The decoder of 30_encoding.md R89: the checks in the order opcode, reserved byte, register fields; the first
that fails names the refusal. -/
def decode (numRegs : Nat) (w : CodeWord) : Except LoadFailure Record :=
  match mnemonicOf (opcField w) with
  | none => .error .badOpcode
  | some op =>
    if rsvField w ≠ 0 then .error .reservedBits
    else
      let r : Record := { op := op, rd := rdField w, rs1 := rs1Field w, rs2 := rs2Field w, imm := immField w }
      if r.instr.wf numRegs then .ok r else .error .badRegister

/-- The decoder as far as the instruction: what `Record.instr` reads from the decoded record. -/
def decodeInstr (numRegs : Nat) (w : CodeWord) : Except LoadFailure Instr :=
  match decode numRegs w with
  | .ok r => .ok r.instr
  | .error x => .error x

/-- Decoding every word of a program in program order; the first word that is refused names the refusal
(log 13). -/
def decodeAll (numRegs : Nat) : List CodeWord → Except LoadFailure (List Record)
  | [] => .ok []
  | w :: ws =>
    match decode numRegs w with
    | .error x => .error x
    | .ok r =>
      match decodeAll numRegs ws with
      | .error x => .error x
      | .ok rs => .ok (r :: rs)

/-- `load(program)`: the load-time checks of 60_exceptions.md R255 and 70_reset_and_hazards.md R284, on a program
given as canonical words. Reading program text is the external loader's (00_scope.md R4). -/
def loadProgram (c : Config) (program : List CodeWord) : Except LoadFailure (List Record) :=
  if program.isEmpty || !c.fits program.length then .error .constructionFailure
  else decodeAll c.numRegs program

/-! ### The interface to the opcode table -/

/-- The canonical word whose bits the opcode table numbers as `w`: one 64-bit word, bit 0 its least significant
bit, every bit from `nbits` on 0 (log 15). -/
def tableWord (nbits w : Nat) : CodeWord := BitVec.ofNat 64 (w % 2 ^ nbits)

/-- What the decoder reads, at the default parameters, from the instruction whose bits are `w`. -/
def decodeTableWord (nbits w : Nat) : Option Instr :=
  match decodeInstr Config.default.numRegs (tableWord nbits w) with
  | .ok i => some i
  | .error _ => none

/-! ### The encoder -/

/-- The opcode number of a mnemonic (30_encoding.md R82). -/
def Op.opc : Op → BitVec 6
  | .nop => 0
  | .add => 1
  | .sub => 2
  | .and => 3
  | .or => 4
  | .xor => 5
  | .addl => 6
  | .subl => 7
  | .movc => 8
  | .load => 9
  | .store => 10
  | .cmp => 11
  | .bz => 12
  | .bnz => 13
  | .bp => 14
  | .bnp => 15
  | .bn => 16
  | .bnn => 17
  | .jump => 18
  | .jal => 19
  | .halt => 20

/-- The canonical word of a record: `{opc, rd, rs1, rs2, 0b00000000, imm}` (30_encoding.md R81). -/
def Record.word (r : Record) : CodeWord :=
  r.op.opc ++ r.rd ++ r.rs1 ++ r.rs2 ++ (0 : BitVec 8) ++ r.imm

/-- The record of an instruction with 0 in every field its format does not use (30_encoding.md R83). -/
def Instr.record (i : Instr) : Record :=
  match i with
  | .add rd rs1 rs2 | .sub rd rs1 rs2 | .and rd rs1 rs2 | .or rd rs1 rs2 | .xor rd rs1 rs2 =>
    { op := i.op, rd := rd, rs1 := rs1, rs2 := rs2, imm := 0 }
  | .addl rd rs1 imm | .subl rd rs1 imm | .load rd rs1 imm | .jal rd rs1 imm =>
    { op := i.op, rd := rd, rs1 := rs1, rs2 := 0, imm := imm }
  | .movc rd imm => { op := i.op, rd := rd, rs1 := 0, rs2 := 0, imm := imm }
  | .store rs1 rs2 imm => { op := i.op, rd := 0, rs1 := rs1, rs2 := rs2, imm := imm }
  | .cmp rs1 rs2 => { op := i.op, rd := 0, rs1 := rs1, rs2 := rs2, imm := 0 }
  | .jump rs1 imm => { op := i.op, rd := 0, rs1 := rs1, rs2 := 0, imm := imm }
  | .bz imm | .bnz imm | .bp imm | .bnp imm | .bn imm | .bnn imm =>
    { op := i.op, rd := 0, rs1 := 0, rs2 := 0, imm := imm }
  | .nop | .halt => { op := i.op, rd := 0, rs1 := 0, rs2 := 0, imm := 0 }

/-- The encoder: the canonical word of an instruction, unused fields 0. -/
def encode (i : Instr) : CodeWord := i.record.word

/-- A record with its unused fields set to 0: what is left of a record when everything R85 calls don't-care is
forgotten. -/
def Record.normal (r : Record) : Record := r.instr.record

/-! ### The assembler spelling (30_encoding.md R90) -/

/-- The mnemonic as 30_encoding.md R82 spells it. -/
def Op.name : Op → String
  | .nop => "NOP"
  | .add => "ADD"
  | .sub => "SUB"
  | .and => "AND"
  | .or => "OR"
  | .xor => "XOR"
  | .addl => "ADDL"
  | .subl => "SUBL"
  | .movc => "MOVC"
  | .load => "LOAD"
  | .store => "STORE"
  | .cmp => "CMP"
  | .bz => "BZ"
  | .bnz => "BNZ"
  | .bp => "BP"
  | .bnp => "BNP"
  | .bn => "BN"
  | .bnn => "BNN"
  | .jump => "JUMP"
  | .jal => "JAL"
  | .halt => "HALT"

/-- A register operand, `R<i>` in decimal. -/
def Reg.spelling (r : Reg) : String := "R" ++ toString r.toNat

/-- An immediate operand, `#<integer>` in decimal with an optional minus sign. -/
def immSpelling (v : Word) : String := "#" ++ toString (s32 v)

/-- The canonical spelling of an instruction: operands separated by commas (30_encoding.md R90). -/
def Instr.spelling (i : Instr) : String :=
  match i with
  | .add rd rs1 rs2 | .sub rd rs1 rs2 | .and rd rs1 rs2 | .or rd rs1 rs2 | .xor rd rs1 rs2 =>
    i.op.name ++ " " ++ rd.spelling ++ "," ++ rs1.spelling ++ "," ++ rs2.spelling
  | .addl rd rs1 imm | .subl rd rs1 imm | .load rd rs1 imm | .jal rd rs1 imm =>
    i.op.name ++ " " ++ rd.spelling ++ "," ++ rs1.spelling ++ "," ++ immSpelling imm
  | .movc rd imm => i.op.name ++ " " ++ rd.spelling ++ "," ++ immSpelling imm
  | .store rs1 rs2 imm => i.op.name ++ " " ++ rs2.spelling ++ "," ++ rs1.spelling ++ "," ++ immSpelling imm
  | .cmp rs1 rs2 => i.op.name ++ " " ++ rs1.spelling ++ "," ++ rs2.spelling
  | .bz imm | .bnz imm | .bp imm | .bnp imm | .bn imm | .bnn imm => i.op.name ++ " " ++ immSpelling imm
  | .jump rs1 imm => i.op.name ++ " " ++ rs1.spelling ++ "," ++ immSpelling imm
  | .nop | .halt => i.op.name

end Sys2Proof
end

