-- ==== Sys2Proof/Machine/State.lean ====
section
/-!
DEFINITION. The whole state of the block as plain data (spec 10_state.md R20 to R46), the reasons a sub-step or a
step can stop, and the reset state (70_reset_and_hazards.md R280). The two field groups the spec does not list as
state are `cfg` and `code`, which the spec passes to the step as parameters (log 1), and `seq`, the sequencer's
place inside a cycle (log 6).
-/

namespace Sys2Proof.Machine

/-- An inter-stage latch (10_state.md R33). A field that no rule writes for an instruction holds what the last
copy left there (log 9). -/
structure Latch where
  /-- "does this latch currently hold a live instruction"; in the F latch, fetch enable (R30). -/
  valid : Bool
  /-- "is this stage frozen this cycle" (R32). -/
  stall : Bool
  /-- The address of the instruction. -/
  pc : Word
  /-- The instruction's mnemonic. -/
  op : Op
  rd : Reg
  rs1 : Reg
  rs2 : Reg
  imm : Word
  /-- The operand values resolved at Decode. -/
  rs1Value : Word
  rs2Value : Word
  /-- The result; for STORE the data to store. -/
  resultBuffer : Word
  /-- The effective address of LOAD and STORE. -/
  memoryAddress : Word
deriving DecidableEq, Repr

/-- A latch with valid 0, stall 0 and every other field 0 (R34, R46); the mnemonic whose opcode number is 0 is NOP
(log 10). -/
def Latch.zero : Latch :=
  { valid := false, stall := false, pc := 0, op := .nop, rd := 0, rs1 := 0, rs2 := 0, imm := 0,
    rs1Value := 0, rs2Value := 0, resultBuffer := 0, memoryAddress := 0 }

/-- A BTB entry; `none` is the sentinel EMPTY (10_state.md R35). -/
structure BtbEntry where
  /-- The pc value this entry predicts. -/
  tag : Option Word
  /-- The history bits `h[1:0]`. -/
  history : BitVec 2
  /-- The predicted target. -/
  target : Option Word
deriving DecidableEq, Repr

/-- The empty BTB entry (R35, R36). -/
def BtbEntry.empty : BtbEntry := { tag := none, history := 0, target := none }

/-- The kinds of run-time fault (60_exceptions.md R250). -/
inductive FaultKind where
  | fetchOutOfRange
  | dataOutOfRange
deriving DecidableEq, Repr

/-- The fault record (60_exceptions.md R251). -/
structure FaultRecord where
  kind  : FaultKind
  /-- 1 for FETCH_OUT_OF_RANGE, 2 for DATA_OUT_OF_RANGE (R250). -/
  code  : Nat
  pc    : Word
  /-- Present for DATA_OUT_OF_RANGE only. -/
  op    : Option Op
  /-- Present for DATA_OUT_OF_RANGE only. -/
  addr  : Option Word
  /-- The number of cycles completed before the faulting cycle. -/
  clock : Nat
deriving DecidableEq, Repr

/-- The run status (10_state.md R37). Only `running` takes another cycle. -/
inductive Status where
  | running
  | halted
  | faulted (record : FaultRecord)
  | stopped
deriving DecidableEq, Repr

/-- The five pipeline stages (00_scope.md R2, R14). -/
inductive Stage where
  | fetch
  | decode
  | execute
  | memory
  | writeback
deriving DecidableEq, Repr

/-- The sequencer's place inside a cycle, the model's own field (log 6). -/
structure Sequencer where
  /-- The stage whose sub-step is being evaluated. -/
  stage : Stage
  /-- `halt_seen` of 40_pipeline_engine.md R100: the writeback_unit's halt output in this cycle. -/
  haltSeen : Bool
deriving DecidableEq, Repr

/-- The sequencer between two cycles: the next sub-step is the writeback sub-step and no halt is signalled. -/
def Sequencer.rest : Sequencer := { stage := .writeback, haltSeen := false }

/-- Data memory: the words that are not 0, as (address, word) pairs with the addresses strictly rising. An address
that is not listed reads as 0 (log 3). The spec's smallest unit is a whole word (20_memory.md R63, R66; log 8). -/
abbrev Memory := List (Nat × Word)

/-- The whole state of the block. -/
structure State where
  /-- The implementation parameters (00_scope.md R6); no rule writes them (log 1). -/
  cfg : Config
  /-- Code memory (10_state.md R39, 20_memory.md R61); immutable during a run (R62). -/
  code : List Record
  /-- The general registers R0 to R(NUM_REGS-1) (10_state.md R20). -/
  regs : List Word
  /-- The fetch pointer (R24). -/
  pc : Word
  /-- The flag Z, "zero_flag" (R26). -/
  z : Bool
  /-- The flag N, "negative_flag" (R26). -/
  n : Bool
  /-- The flag P, "positive_flag" (R26). -/
  p : Bool
  /-- The number of completed cycles (R28). -/
  clock : Nat
  /-- The number of retired instructions (R29). -/
  completed : Nat
  /-- The fetch latch F; its valid bit is fetch enable (R30, R34). -/
  f : Latch
  /-- The decode latch D (R34). -/
  d : Latch
  /-- The execute latch E (R34). -/
  e : Latch
  /-- The memory latch M (R34). -/
  m : Latch
  /-- The writeback latch WB (R34). -/
  wb : Latch
  /-- The refetch-delay flag (R31). -/
  redirectPending : Bool
  /-- The branch target buffer (R36). -/
  btb : List BtbEntry
  /-- Data memory (R38). -/
  dm : Memory
  /-- The run status (R37). -/
  status : Status
  /-- The sequencer's place inside a cycle, the model's own field (log 6). -/
  seq : Sequencer
deriving DecidableEq, Repr

/-- The two run-time faults of 60_exceptions.md R250, with the information each records, as a SUB-STEP raises them
(`raise Fault(kind, info)`, 00_scope.md R11). The cycle turns one into the next state of R252: everything frozen and
`status` Faulted with the full record. So a meaning can answer a fault and `step` never does. Safe: the machine's
own response to the fault is modelled whole (log 7). -/
inductive Fault where
  /-- FETCH_OUT_OF_RANGE, raised by the fetch_unit at a pc value that names no record (20_memory.md R61). -/
  | fetchOutOfRange (pc : Word)
  /-- DATA_OUT_OF_RANGE, raised by the memory_lsu for a LOAD or STORE outside data memory (20_memory.md R64, R65). -/
  | dataOutOfRange (pc : Word) (op : Op) (addr : Word)
deriving DecidableEq, Repr

/-- The refusals: states and operands that no block of the spec can hold. -/
inductive Refusal where
  /-- The instruction of this mnemonic has no meaning in the model. Raised by no arm: every row of the opcode table
  has its meaning. Safe. -/
  | notModelled (mnemonic : String)
  /-- `step` on a block whose code memory is empty: CODE_LEN = 0 is the load-time CONSTRUCTION_FAILURE, no block is
  created and no cycle runs (60_exceptions.md R255; log 5). Safe. -/
  | constructionFailure
  /-- A used register index that is not below NUM_REGS reached an operand read or a register write: the loader
  refuses such a record as LOAD_BAD_REGISTER (30_encoding.md R86; log 12), so no run reaches this. Safe. -/
  | registerOutsideFile (index : Reg)
  /-- The BTB predicts taken to the sentinel EMPTY: no entry with a tag and no target exists in a block, since the
  BTB is never written (40_pipeline_engine.md R144, R145; log 11), so no run reaches this. Safe. -/
  | btbTargetEmpty
deriving DecidableEq, Repr

/-- What a sub-step and an instruction's meaning answer. -/
abbrev Res := Host.Outcome State Fault Refusal

/-- Data memory holding the given words from address `a` on, the zero words left out (the form of `Memory`). -/
def Memory.ofWords : List Word → Nat → Memory
  | [], _ => []
  | w :: ws, a => if w = 0 then Memory.ofWords ws (a + 1) else (a, w) :: Memory.ofWords ws (a + 1)

/-- `reset(code, R_init, DM_init)` of 70_reset_and_hazards.md R280 and 10_state.md R46, for every value of the
parameters and the launch inputs: `rInit[i]` is R_init[i] and `dmInit[a]` is DM_init[a], 0 past the end of either
list. -/
def State.resetWith (cfg : Config) (code : List Record) (rInit dmInit : List Word) : State :=
  { cfg := cfg
    code := code
    regs := (List.range cfg.numRegs).map (fun i => rInit.getD i 0)
    pc := wrap32 cfg.codeBase
    z := false
    n := false
    p := false
    clock := 0
    completed := 0
    f := { Latch.zero with valid := true }
    d := Latch.zero
    e := Latch.zero
    m := Latch.zero
    wb := Latch.zero
    redirectPending := false
    btb := List.replicate cfg.btbEntries BtbEntry.empty
    dm := Memory.ofWords (dmInit.take cfg.dataWords) 0
    status := .running
    seq := Sequencer.rest }

/-- The block after reset with the default parameters, all launch inputs 0 (10_state.md R23: "Every example and
test vector in this spec uses `R_init[i] = 0`"; DESIGN CHOICE, log 2, log 3, log 4) and no program: code memory comes from the
loader, before reset (log 5). -/
def State.reset : State := State.resetWith Config.default [] [] []

end Sys2Proof.Machine
end

