-- ==== Sys2Proof/Machine/Ops.lean ====
section
/-!
DEFINITION. The named operations over memory, registers, latches and the sequencer: data memory (20_memory.md R63 to
R65), code memory (R61), the register file (10_state.md R20 to R22), the hand-offs between latches
(40_pipeline_engine.md R102, R112, R117, R125, R130, R134), the redirect (R124), and the one shared operation of a
fault (60_exceptions.md R252). The block has no trap entry and no return from one (R257, R258): stopping is its
only response to a fault.
-/

namespace Sys2Proof.Machine

/-! ### Data memory -/

/-- The word at address `a`; an unlisted address reads as 0 (log 3). -/
def Memory.read : Memory → Nat → Word
  | [], _ => 0
  | (k, v) :: rest, a => if a = k then v else Memory.read rest a

/-- The memory with word `v` at address `a`, in the same canonical form: writing 0 removes the entry. -/
def Memory.write : Memory → Nat → Word → Memory
  | [], a, v => if v = 0 then [] else [(a, v)]
  | (k, w) :: rest, a, v =>
    if a < k then (if v = 0 then (k, w) :: rest else (a, v) :: (k, w) :: rest)
    else if a = k then (if v = 0 then rest else (a, v) :: rest)
    else (k, w) :: Memory.write rest a v

/-- Every address of the memory is above `lo`, the addresses strictly rise, and no listed word is 0. -/
def Memory.wfAbove : Nat → Memory → Bool
  | _, [] => true
  | lo, (k, v) :: rest => decide (lo ≤ k) && v != 0 && Memory.wfAbove (k + 1) rest

/-- The canonical form: addresses strictly rising, no entry equal to what an unlisted address reads as. -/
def Memory.wf (m : Memory) : Bool := Memory.wfAbove 0 m

/-- The range condition of R64 and R65: `0 <= s32(a) < DATA_WORDS`. -/
def dataInRange (c : Config) (a : Word) : Bool := decide (0 ≤ s32 a ∧ s32 a < c.dataWords)

/-- `MemRead(a, 1)` (20_memory.md R64): the word, or the fault with the address, pc and mnemonic of the instruction
in M. -/
def memRead (s : State) (a : Word) : Except Fault Word :=
  if dataInRange s.cfg a then .ok (s.dm.read (s32 a).toNat)
  else .error (.dataOutOfRange s.m.pc s.m.op a)

/-- `MemWrite(a, 1, v)` (20_memory.md R65): the state with the word written, or the fault; a faulting write changes
no word. -/
def memWrite (s : State) (a v : Word) : Except Fault State :=
  if dataInRange s.cfg a then .ok { s with dm := s.dm.write (s32 a).toNat v }
  else .error (.dataOutOfRange s.m.pc s.m.op a)

/-! ### Code memory -/

/-- Record `(s32(p) - CODE_BASE) / W` of code memory `code` when `p` lies in it and is CODE_BASE plus a multiple of W;
undefined otherwise (20_memory.md R61). -/
def codeAt (c : Config) (code : List Record) (p : Word) : Option Record :=
  let off : Int := s32 p - c.codeBase
  if 0 ≤ off ∧ s32 p < c.codeBase + code.length * c.stride ∧ off % c.stride = 0 then
    code[(off / c.stride).toNat]?
  else none

/-- `CodeRead(p)` (20_memory.md R61), through the code-memory read port (10_state.md R41). -/
def codeRead (s : State) (p : Word) : Option Record := codeAt s.cfg s.code p

/-- The pc value after `p`: `wrap32(p + W)` (40_pipeline_engine.md R111). -/
def nextPc (c : Config) (p : Word) : Word := wrap32 (s32 p + c.stride)

/-! ### Registers -/

/-- A read of general register `r`: the last value written; R0 is an ordinary register (10_state.md R20 to R22).
None for an index that names no register. -/
def readReg (s : State) (r : Reg) : Option Word := s.regs[r.toNat]?

/-- A write of general register `r`, R0 included (10_state.md R21, 40_pipeline_engine.md R132). None for an index
that names no register. -/
def writeReg (s : State) (r : Reg) (v : Word) : Option State :=
  if r.toNat < s.regs.length then some { s with regs := s.regs.set r.toNat v } else none

/-! ### Updates of the execute sub-step -/

/-- `E.result_buffer <- v`. -/
def setResult (v : Word) (s : State) : State := { s with e := { s.e with resultBuffer := v } }

/-- `E.memory_address <- a`. -/
def setAddress (a : Word) (s : State) : State := { s with e := { s.e with memoryAddress := a } }

/-- `Z <- b`, N and P unchanged (10_state.md R27). -/
def setZ (b : Bool) (s : State) : State := { s with z := b }

/-- All three flags, as only CMP writes them (10_state.md R27, 41_alu.md R169). -/
def setFlags (z n p : Bool) (s : State) : State := { s with z := z, n := n, p := p }

/-- `redirect(target)` (40_pipeline_engine.md R124): the fetch pointer, the refetch delay, the flush of D, and fetch
re-enabled. No other latch and no stall bit changes. -/
def redirect (target : Word) (s : State) : State :=
  { s with
    pc := target
    redirectPending := true
    d := { s.d with valid := false }
    f := { s.f with valid := true } }

/-! ### Latch hand-offs -/

/-- The record read into the F latch (40_pipeline_engine.md R110). -/
def latchFetched (r : Record) (s : State) : State :=
  { s with f := { s.f with pc := s.pc, op := r.op, rd := r.rd, rs1 := r.rs1, rs2 := r.rs2, imm := r.imm } }

/-- The pc advance and `D <- copy(F)` (R111, R112). -/
def fetchHandOff (s : State) : State := { s with pc := nextPc s.cfg s.pc, d := s.f }

/-- `E <- copy(D)` and `D.valid <- 0` (R117). -/
def decodeHandOff (s : State) : State := { s with e := s.d, d := { s.d with valid := false } }

/-- `M <- copy(E)` and `E.valid <- 0` (R125). -/
def executeHandOff (s : State) : State := { s with m := s.e, e := { s.e with valid := false } }

/-- `WB <- copy(M)` and `M.valid <- 0` (R130). -/
def memoryHandOff (s : State) : State := { s with wb := s.m, m := { s.m with valid := false } }

/-- The retirement count and `WB.valid <- 0` (R133, R134). -/
def retire (s : State) : State := { s with completed := s.completed + 1, wb := { s.wb with valid := false } }

/-- The halt output of the writeback_unit, raised when the retired instruction is HALT (R135). -/
def signalHalt (s : State) : State := { s with seq := { s.seq with haltSeen := true } }

/-! ### The sequencer -/

/-- The sequencer at the sub-step of stage `k`. -/
def atStage (k : Stage) (s : State) : State := { s with seq := { s.seq with stage := k } }

/-- The end of a cycle (40_pipeline_engine.md R100, R101): the clock counts it, and a halt signalled by the writeback
sub-step ends the run. -/
def endCycle (s : State) : State :=
  { s with
    clock := s.clock + 1
    status := if s.seq.haltSeen then .halted else s.status
    seq := Sequencer.rest }

/-- The fault record (60_exceptions.md R250, R251) of a fault raised when the cycle counter is `clock`. -/
def Fault.record (clock : Nat) : Fault → FaultRecord
  | .fetchOutOfRange pc =>
    { kind := .fetchOutOfRange, code := 1, pc := pc, op := none, addr := none, clock := clock }
  | .dataOutOfRange pc op addr =>
    { kind := .dataOutOfRange, code := 2, pc := pc, op := some op, addr := some addr, clock := clock }

/-- What a fault does (60_exceptions.md R252), applied to the state at the start of the sub-step that raised it: the
earlier sub-steps stand, `clock` is not incremented, and `status` is Faulted with the record. -/
def stopFaulted (x : Fault) (s : State) : State :=
  { s with status := .faulted (x.record s.clock), seq := Sequencer.rest }

end Sys2Proof.Machine
end

