-- ==== Sys2Proof/Machine/Flags.lean ====
section
/-!
DEFINITION. The arithmetic of the execute_alu and every flag computation of the spec: wrap-around sums and
differences (41_alu.md R160, R171), Z of a result (R161, R162, R166, R167) and the three-way comparison (R169).
-/

namespace Sys2Proof.Machine

/-- `wrap32(a + b)`: the exact sum of the signed operands, reduced to 32 bits (41_alu.md R171). -/
def addWrap (a b : Word) : Word := wrap32 (s32 a + s32 b)

/-- `wrap32(a - b)`: the exact difference of the signed operands, reduced to 32 bits (41_alu.md R171). -/
def subWrap (a b : Word) : Word := wrap32 (s32 a - s32 b)

/-- `Z <- (result = 0)`. -/
def zeroFlag (v : Word) : Bool := v == 0

/-- Z of CMP: the signed operands are equal (41_alu.md R169). -/
def cmpZ (a b : Word) : Bool := decide (s32 a = s32 b)

/-- N of CMP: the first signed operand is less. -/
def cmpN (a b : Word) : Bool := decide (s32 a < s32 b)

/-- P of CMP: the first signed operand is greater. -/
def cmpP (a b : Word) : Bool := decide (s32 b < s32 a)

/-- The result into `E.result_buffer` and Z from it: what ADD, SUB, ADDL and SUBL execute (10_state.md R27). -/
def setResultZ (v : Word) (s : State) : State := setZ (zeroFlag v) (setResult v s)

end Sys2Proof.Machine
end

