-- ==== Sys2Proof/Machine/Operands.lean ====
section
/-!
DEFINITION. Operand forms and what the formats share: the register-writing and source-register sets
(40_pipeline_engine.md R104, R105), the operand forwarding mux (R118 to R121), the hazard condition (R136 to R138),
effective addresses and targets (42_load_store.md R190, 43_control.md R210, R217), the parts a format gives an
instruction in the decode, memory and writeback sub-steps, and the formats of 30_encoding.md R83 themselves.
-/

namespace Sys2Proof.Machine

/-! ### The opcode sets -/

/-- `op in WRITERS` (40_pipeline_engine.md R104). -/
def isWriter : Op → Bool
  | .add | .sub | .and | .or | .xor | .addl | .subl | .movc | .load | .jal => true
  | .store | .cmp | .bz | .bnz | .bp | .bnp | .bn | .bnn | .jump | .halt | .nop => false

/-- `rs1 in SRCS(op)` (40_pipeline_engine.md R105). -/
def readsRs1 : Op → Bool
  | .add | .sub | .and | .or | .xor | .cmp | .store | .addl | .subl | .load | .jump | .jal => true
  | .movc | .bz | .bnz | .bp | .bnp | .bn | .bnn | .halt | .nop => false

/-- `rs2 in SRCS(op)` (40_pipeline_engine.md R105). -/
def readsRs2 : Op → Bool
  | .add | .sub | .and | .or | .xor | .cmp | .store => true
  | .addl | .subl | .load | .jump | .jal | .movc | .bz | .bnz | .bp | .bnp | .bn | .bnn | .halt | .nop => false

/-- `r in SRCREGS(L)`: the instruction in latch `l` reads register `r` (40_pipeline_engine.md R105). -/
def readsReg (l : Latch) (r : Reg) : Bool :=
  (readsRs1 l.op && l.rs1 == r) || (readsRs2 l.op && l.rs2 == r)

/-- The instruction a latch holds, as its format's operands. -/
def Latch.instr (l : Latch) : Instr :=
  Record.instr { op := l.op, rd := l.rd, rs1 := l.rs1, rs2 := l.rs2, imm := l.imm }

/-! ### Hazard detection -/

/-- The hazard condition (40_pipeline_engine.md R136): E holds a valid register writer with a nonzero destination that
the valid instruction in D reads. -/
def hazardCondition (s : State) : Bool :=
  s.e.valid && s.d.valid && isWriter s.e.op && s.e.rd != 0 && readsReg s.d s.e.rd

/-- `hazard_check()` (R136 to R138): both stall bits are written with the same value. -/
def hazardCheck (s : State) : State :=
  { s with
    f := { s.f with stall := hazardCondition s }
    d := { s.d with stall := hazardCondition s } }

/-! ### Operand forwarding -/

/-- The latch M is a forwarding source for register `r`: a valid register writer other than LOAD (R118, R120). -/
def forwardsFromM (s : State) (r : Reg) : Bool :=
  s.m.valid && isWriter s.m.op && s.m.op != .load && s.m.rd == r

/-- The latch WB is a forwarding source for register `r`: a valid register writer (R118). -/
def forwardsFromWb (s : State) (r : Reg) : Bool :=
  s.wb.valid && isWriter s.wb.op && s.wb.rd == r

/-- `fwd(r)` (R118): M before WB before the register file. The forwarded value is final (R121). -/
def fwd (s : State) (r : Reg) : Option Word :=
  if forwardsFromM s r then some s.m.resultBuffer
  else if forwardsFromWb s r then some s.wb.resultBuffer
  else readReg s r

/-! ### Addresses and targets -/

/-- `wrap32(rs1_value + imm)` of the instruction in E: the data address of LOAD and STORE (42_load_store.md R190) and
the target of JUMP and JAL (43_control.md R217, R218). -/
def baseOffset (imm : Word) (s : State) : Word := wrap32 (s32 s.e.rs1Value + s32 imm)

/-- `wrap32(E.pc + imm)`: the target of a conditional branch, from the branch's own pc (43_control.md R210). -/
def branchTarget (imm : Word) (s : State) : Word := wrap32 (s32 s.e.pc + s32 imm)

/-- A conditional branch: the redirect when its test passes, nothing otherwise (43_control.md R210). -/
def branchIf (test : Bool) (imm : Word) (s : State) : State :=
  if test then redirect (branchTarget imm s) s else s

/-! ### The part of each stage -/

/-- The fetch sub-step of an instruction that is neither HALT nor NOP: pc advance and hand-off (R111, R112). -/
def fetchPass (s : State) : Res := .next (fetchHandOff s)

/-- The fetch sub-step of HALT: fetching stops; the copy in D stays valid (40_pipeline_engine.md R113). -/
def fetchHalt (s : State) : Res :=
  let t := fetchHandOff s
  .next { t with f := { t.f with valid := false } }

/-- The fetch sub-step of NOP: the copy in D is dropped (40_pipeline_engine.md R114). -/
def fetchNop (s : State) : Res :=
  let t := fetchHandOff s
  .next { t with d := { t.d with valid := false } }

/-- The decode sub-step of an instruction that reads no register (R116, R117). -/
def decodeNone (s : State) : Res := .next (decodeHandOff s)

/-- The decode sub-step of an instruction that reads rs1 only: the operand through the forwarding mux (R116, R118),
then the hand-off (R117). -/
def decodeFirst (rs1 : Reg) (s : State) : Res :=
  match fwd s rs1 with
  | none => .refused (.registerOutsideFile rs1)
  | some a => .next (decodeHandOff { s with d := { s.d with rs1Value := a } })

/-- The decode sub-step of an instruction that reads rs1 and rs2 (R116 to R118). -/
def decodeBoth (rs1 rs2 : Reg) (s : State) : Res :=
  match fwd s rs1 with
  | none => .refused (.registerOutsideFile rs1)
  | some a =>
    match fwd s rs2 with
    | none => .refused (.registerOutsideFile rs2)
    | some b => .next (decodeHandOff { s with d := { s.d with rs1Value := a, rs2Value := b } })

/-- The execute sub-step: the instruction's own arm, then the hand-off (R123, R125). -/
def executeWith (arm : State → State) (s : State) : Res := .next (executeHandOff (arm s))

/-- The memory sub-step of an instruction that does not access memory (R129, R130). -/
def memoryPass (s : State) : Res := .next (memoryHandOff s)

/-- The memory sub-step of LOAD (R127, R130). -/
def memoryLoad (s : State) : Res :=
  match memRead s s.m.memoryAddress with
  | .error x => .fault x
  | .ok v => .next (memoryHandOff { s with m := { s.m with resultBuffer := v } })

/-- The memory sub-step of STORE (R128, R130). -/
def memoryStore (s : State) : Res :=
  match memWrite s s.m.memoryAddress s.m.resultBuffer with
  | .error x => .fault x
  | .ok t => .next (memoryHandOff t)

/-- The writeback sub-step of a register-writing instruction (R132 to R134). -/
def writebackReg (rd : Reg) (s : State) : Res :=
  match writeReg s rd s.wb.resultBuffer with
  | none => .refused (.registerOutsideFile rd)
  | some t => .next (retire t)

/-- The writeback sub-step of an instruction that writes no register (R133, R134). -/
def writebackNone (s : State) : Res := .next (retire s)

/-- The writeback sub-step of HALT: retired, counted, and the halt signalled (R133 to R135). -/
def writebackHalt (s : State) : Res := .next (signalHalt (retire s))

/-- The part of an instruction in the stage the sequencer is at. -/
def byStage (s : State) (onFetch onDecode onExecute onMemory onWriteback : State → Res) : Res :=
  match s.seq.stage with
  | .fetch => onFetch s
  | .decode => onDecode s
  | .execute => onExecute s
  | .memory => onMemory s
  | .writeback => onWriteback s

/-! ### The formats (30_encoding.md R83): what each stage does around the instruction's execute arm -/

/-- RRR: reads rs1 and rs2, writes rd. -/
def runRRR (rd rs1 rs2 : Reg) (arm : State → State) (s : State) : Res :=
  byStage s fetchPass (decodeBoth rs1 rs2) (executeWith arm) memoryPass (writebackReg rd)

/-- RRI without a memory access: reads rs1, writes rd. -/
def runRRI (rd rs1 : Reg) (arm : State → State) (s : State) : Res :=
  byStage s fetchPass (decodeFirst rs1) (executeWith arm) memoryPass (writebackReg rd)

/-- RI: reads no register, writes rd. -/
def runRI (rd : Reg) (arm : State → State) (s : State) : Res :=
  byStage s fetchPass decodeNone (executeWith arm) memoryPass (writebackReg rd)

/-- CRR: reads rs1 and rs2, writes no register. -/
def runCRR (rs1 rs2 : Reg) (arm : State → State) (s : State) : Res :=
  byStage s fetchPass (decodeBoth rs1 rs2) (executeWith arm) memoryPass writebackNone

/-- BI: reads and writes no register. -/
def runBI (arm : State → State) (s : State) : Res :=
  byStage s fetchPass decodeNone (executeWith arm) memoryPass writebackNone

/-- JRI: reads rs1, writes no register. -/
def runJRI (rs1 : Reg) (arm : State → State) (s : State) : Res :=
  byStage s fetchPass (decodeFirst rs1) (executeWith arm) memoryPass writebackNone

end Sys2Proof.Machine
end

