-- ==== Sys2Proof/Machine/Btb.lean ====
section
/-!
DEFINITION. The branch target buffer (40_pipeline_engine.md R109, R141 to R145): lookup, prediction and the prediction
step of the fetch sub-step. No operation writes the BTB: there is no update policy (R144).
-/

namespace Sys2Proof.Machine

/-- A conditional branch: the mnemonics that consult the BTB (R109). -/
def isBranch : Op → Bool
  | .bz | .bnz | .bp | .bnp | .bn | .bnn => true
  | .nop | .add | .sub | .and | .or | .xor | .addl | .subl | .movc | .load | .store | .cmp | .jump | .jal | .halt => false

/-- `btb_lookup(a)` (R142): the index of the first entry, in increasing order, whose tag is `a`; none for NOT_FOUND. An
EMPTY tag equals no pc value. -/
def btbLookup (btb : List BtbEntry) (a : Word) : Option Nat := btb.findIdx? (fun x => x.tag == some a)

/-- `btb_predict(h, k)` (R143): predicted taken. -/
def btbPredict (h : BitVec 2) (k : Op) : Bool :=
  match k with
  | .bnz | .bp => h != 0
  | .bz | .bnp => h == 0
  | .bn | .bnn => false
  | .nop | .add | .sub | .and | .or | .xor | .addl | .subl | .movc | .load | .store | .cmp | .jump | .jal | .halt => false

/-- `btb_predict_step()` (R109). A prediction to the sentinel EMPTY is refused by name (log 11). -/
def btbPredictStep (s : State) : Res :=
  match codeRead s s.pc with
  | none => .next s
  | some r =>
    if isBranch r.op then
      match btbLookup s.btb s.pc with
      | none => .next s
      | some i =>
        let x := s.btb.getD i BtbEntry.empty
        if btbPredict x.history r.op then
          match x.target with
          | none => .refused .btbTargetEmpty
          | some t => .next { s with pc := t }
        else .next { s with pc := nextPc s.cfg s.pc }
    else .next s

end Sys2Proof.Machine
end

