-- ==== Sys2Proof/Machine/Alu.lean ====
section
/-!
DEFINITION. The ALU family: ADD SUB AND OR XOR ADDL SUBL MOVC CMP (41_alu.md R160 to R171). The meaning of an
instruction is its part in each of the five stages; the sequencer says which stage is being evaluated. The execute
arm reads the operand values the decode sub-step put into E.
-/

namespace Sys2Proof.Machine

/-- ADD Rd,Rs1,Rs2 (41_alu.md R161): the wrapped sum, and Z from it. -/
def execAdd (rd rs1 rs2 : Reg) (s : State) : Res :=
  runRRR rd rs1 rs2 (fun t => setResultZ (addWrap t.e.rs1Value t.e.rs2Value) t) s

/-- SUB Rd,Rs1,Rs2 (41_alu.md R162): the wrapped difference, and Z from it. -/
def execSub (rd rs1 rs2 : Reg) (s : State) : Res :=
  runRRR rd rs1 rs2 (fun t => setResultZ (subWrap t.e.rs1Value t.e.rs2Value) t) s

/-- AND Rd,Rs1,Rs2 (41_alu.md R163): bit by bit, no flag written. -/
def execAnd (rd rs1 rs2 : Reg) (s : State) : Res :=
  runRRR rd rs1 rs2 (fun t => setResult (t.e.rs1Value &&& t.e.rs2Value) t) s

/-- OR Rd,Rs1,Rs2 (41_alu.md R164): bit by bit, no flag written. -/
def execOr (rd rs1 rs2 : Reg) (s : State) : Res :=
  runRRR rd rs1 rs2 (fun t => setResult (t.e.rs1Value ||| t.e.rs2Value) t) s

/-- XOR Rd,Rs1,Rs2 (41_alu.md R165): bit by bit, no flag written. -/
def execXor (rd rs1 rs2 : Reg) (s : State) : Res :=
  runRRR rd rs1 rs2 (fun t => setResult (t.e.rs1Value ^^^ t.e.rs2Value) t) s

/-- ADDL Rd,Rs1,#imm (41_alu.md R166): the wrapped sum, and Z from it. -/
def execAddl (rd rs1 : Reg) (imm : Word) (s : State) : Res :=
  runRRI rd rs1 (fun t => setResultZ (addWrap t.e.rs1Value imm) t) s

/-- SUBL Rd,Rs1,#imm (41_alu.md R167): the wrapped difference, and Z from it. -/
def execSubl (rd rs1 : Reg) (imm : Word) (s : State) : Res :=
  runRRI rd rs1 (fun t => setResultZ (subWrap t.e.rs1Value imm) t) s

/-- MOVC Rd,#imm (41_alu.md R168): the immediate unchanged, no flag written. -/
def execMovc (rd : Reg) (imm : Word) (s : State) : Res :=
  runRI rd (fun t => setResult imm t) s

/-- CMP Rs1,Rs2 (41_alu.md R169, R170): the three flags from the signed comparison, and nothing else. -/
def execCmp (rs1 rs2 : Reg) (s : State) : Res :=
  runCRR rs1 rs2
    (fun t => setFlags (cmpZ t.e.rs1Value t.e.rs2Value) (cmpN t.e.rs1Value t.e.rs2Value)
      (cmpP t.e.rs1Value t.e.rs2Value) t) s

end Sys2Proof.Machine
end

