-- ==== Sys2Proof/Machine/Control.lean ====
section
/-!
DEFINITION. Control transfer: BZ BNZ BP BNP BN BNN JUMP JAL (43_control.md R210 to R222). Targets are not checked here;
the fetch that uses one checks it (R220).
-/

namespace Sys2Proof.Machine

/-- BZ #imm (43_control.md R211): taken when Z = 1. -/
def execBz (imm : Word) (s : State) : Res := runBI (fun t => branchIf t.z imm t) s

/-- BNZ #imm (43_control.md R212): taken when Z = 0. -/
def execBnz (imm : Word) (s : State) : Res := runBI (fun t => branchIf (!t.z) imm t) s

/-- BP #imm (43_control.md R213): taken when P = 1. -/
def execBp (imm : Word) (s : State) : Res := runBI (fun t => branchIf t.p imm t) s

/-- BNP #imm (43_control.md R214): taken when P = 0. -/
def execBnp (imm : Word) (s : State) : Res := runBI (fun t => branchIf (!t.p) imm t) s

/-- BN #imm (43_control.md R215): taken when N = 1. -/
def execBn (imm : Word) (s : State) : Res := runBI (fun t => branchIf t.n imm t) s

/-- BNN #imm (43_control.md R216): taken when N = 0. -/
def execBnn (imm : Word) (s : State) : Res := runBI (fun t => branchIf (!t.n) imm t) s

/-- JUMP Rs1,#imm (43_control.md R217): always to rs1 + imm. -/
def execJump (rs1 : Reg) (imm : Word) (s : State) : Res :=
  runJRI rs1 (fun t => redirect (baseOffset imm t) t) s

/-- JAL Rd,Rs1,#imm (43_control.md R218): the link pc + W into rd, and always to rs1 + imm. -/
def execJal (rd rs1 : Reg) (imm : Word) (s : State) : Res :=
  runRRI rd rs1 (fun t => redirect (baseOffset imm t) (setResult (nextPc t.cfg t.e.pc) t)) s

end Sys2Proof.Machine
end

