-- ==== Sys2Proof/Machine/LoadStore.lean ====
section
/-!
DEFINITION. The load/store family: LOAD and STORE (42_load_store.md R190 to R192). The refused post-increment forms
have no opcode (R193).
-/

namespace Sys2Proof.Machine

/-- LOAD Rd,Rs1,#imm (42_load_store.md R191): the address in the execute sub-step, the word in the memory sub-step or
DATA_OUT_OF_RANGE, the register in the writeback sub-step. -/
def execLoad (rd rs1 : Reg) (imm : Word) (s : State) : Res :=
  byStage s fetchPass (decodeFirst rs1) (executeWith (fun t => setAddress (baseOffset imm t) t)) memoryLoad
    (writebackReg rd)

/-- STORE Rs2,Rs1,#imm (42_load_store.md R192): the address and the data in the execute sub-step, the write in the
memory sub-step or DATA_OUT_OF_RANGE. -/
def execStore (rs1 rs2 : Reg) (imm : Word) (s : State) : Res :=
  byStage s fetchPass (decodeBoth rs1 rs2)
    (executeWith (fun t => setResult t.e.rs2Value (setAddress (baseOffset imm t) t))) memoryStore writebackNone

end Sys2Proof.Machine
end

