-- ==== Sys2Proof/Machine/System.lean ====
section
/-!
DEFINITION. The system family: HALT and NOP (44_system.md R240 to R242).
-/

namespace Sys2Proof.Machine

/-- HALT (44_system.md R240): fetching it stops fetching, its execute arm is empty, and retiring it signals halt. -/
def execHalt (s : State) : Res :=
  byStage s fetchHalt decodeNone (executeWith id) memoryPass writebackHalt

/-- NOP (44_system.md R241): dropped by the fetch sub-step, which leaves D invalid. The later parts exist because the
dispatch is exhaustive (40_pipeline_engine.md R123); its execute arm is empty, and no run reaches them. -/
def execNop (s : State) : Res :=
  byStage s fetchNop decodeNone (executeWith id) memoryPass writebackNone

end Sys2Proof.Machine
end

