-- ==== Sys2Proof/Machine/Dispatch.lean ====
section
/-!
DEFINITION. The dispatch (40_pipeline_engine.md R123): one arm per instruction, exhaustive, no fall-through. `exec i s`
is the part of instruction `i` in the sub-step the sequencer of `s` is at, on the latch of that stage, which holds `i`.
-/

namespace Sys2Proof.Machine

def exec (i : Instr) (s : State) : Host.Outcome State Fault Refusal :=
  match i with
  | .nop => Sys2Proof.Machine.execNop s
  | .add rd rs1 rs2 => Sys2Proof.Machine.execAdd rd rs1 rs2 s
  | .sub rd rs1 rs2 => Sys2Proof.Machine.execSub rd rs1 rs2 s
  | .and rd rs1 rs2 => Sys2Proof.Machine.execAnd rd rs1 rs2 s
  | .or rd rs1 rs2 => Sys2Proof.Machine.execOr rd rs1 rs2 s
  | .xor rd rs1 rs2 => Sys2Proof.Machine.execXor rd rs1 rs2 s
  | .addl rd rs1 imm => Sys2Proof.Machine.execAddl rd rs1 imm s
  | .subl rd rs1 imm => Sys2Proof.Machine.execSubl rd rs1 imm s
  | .movc rd imm => Sys2Proof.Machine.execMovc rd imm s
  | .load rd rs1 imm => Sys2Proof.Machine.execLoad rd rs1 imm s
  | .store rs1 rs2 imm => Sys2Proof.Machine.execStore rs1 rs2 imm s
  | .cmp rs1 rs2 => Sys2Proof.Machine.execCmp rs1 rs2 s
  | .bz imm => Sys2Proof.Machine.execBz imm s
  | .bnz imm => Sys2Proof.Machine.execBnz imm s
  | .bp imm => Sys2Proof.Machine.execBp imm s
  | .bnp imm => Sys2Proof.Machine.execBnp imm s
  | .bn imm => Sys2Proof.Machine.execBn imm s
  | .bnn imm => Sys2Proof.Machine.execBnn imm s
  | .jump rs1 imm => Sys2Proof.Machine.execJump rs1 imm s
  | .jal rd rs1 imm => Sys2Proof.Machine.execJal rd rs1 imm s
  | .halt => Sys2Proof.Machine.execHalt s

end Sys2Proof.Machine
end

