-- ==== Sys2Proof/Machine/Stages.lean ====
section
/-!
DEFINITION. The five stage sub-steps and the cycle that orders them (40_pipeline_engine.md R100, R101). A stage acts only
on a valid, unstalled latch (R103, R106, R115, R122, R126, R131); what it does for the instruction in that latch is that
instruction's meaning, called through `exec` with the sequencer at the stage.
-/

namespace Sys2Proof.Machine

/-- The sub-step of a stage that holds latch `l`: nothing for a bubble or a stalled latch (R103), else the part of the
latch's instruction in stage `k`. -/
def stageStep (k : Stage) (l : Latch) (s : State) : Res :=
  if l.stall || !l.valid then .next s else exec l.instr (atStage k s)

/-- The writeback sub-step (R131 to R135). -/
def writebackStep (s : State) : Res := stageStep .writeback s.wb s

/-- The memory sub-step (R126 to R130). -/
def memoryStep (s : State) : Res := stageStep .memory s.m s

/-- The execute sub-step (R122 to R125). -/
def executeStep (s : State) : Res := stageStep .execute s.e s

/-- The decode sub-step (R115 to R117). It never invokes the hazard unit (R140). -/
def decodeStep (s : State) : Res := stageStep .decode s.d s

/-- The read of the fetch sub-step (R110): the record at pc into F and the record's own part in the fetch sub-step, or
FETCH_OUT_OF_RANGE. -/
def fetchRead (s : State) : Res :=
  match codeRead s s.pc with
  | none => .fault (.fetchOutOfRange s.pc)
  | some r => exec r.instr (atStage .fetch (latchFetched r s))

/-- The fetch sub-step: stalled (R106), disabled (R107), the refetch delay (R108), else prediction (R109) and the
read (R110 to R114). -/
def fetchStep (s : State) : Res :=
  if s.f.stall then .next (hazardCheck s)
  else if !s.f.valid then .next s
  else if s.redirectPending then .next { s with redirectPending := false }
  else
    match btbPredictStep s with
    | .next t => fetchRead t
    | .fault x => .fault x
    | .refused x => .refused x

/-- The sub-step of a stage. -/
def subStep (k : Stage) (s : State) : Res :=
  match k with
  | .writeback => writebackStep s
  | .memory => memoryStep s
  | .execute => executeStep s
  | .decode => decodeStep s
  | .fetch => fetchStep s

/-- The order of the stage sub-steps in a cycle (R100). -/
def stageOrder : List Stage := [.writeback, .memory, .execute, .decode, .fetch]

/-- The stage sub-steps of a cycle in order, then the hazard re-check and the end of the cycle (R100). A fault ends the
cycle in the sub-step that raises it, with the state of that sub-step's start (60_exceptions.md R252). -/
def runSubSteps : List Stage → State → Res
  | [], s => .next (endCycle (hazardCheck s))
  | k :: rest, s =>
    match subStep k s with
    | .next t => runSubSteps rest t
    | .fault x => .next (stopFaulted x s)
    | .refused x => .refused x

/-- One clock cycle (R100). -/
def cycle (s : State) : Res := runSubSteps stageOrder s

/-! ### Placing an instruction for the next fetch (log 14) -/

/-- The record that pads code memory below a placed record: NOP, all fields 0. -/
def paddingRecord : Record := { op := .nop, rd := 0, rs1 := 0, rs2 := 0, imm := 0 }

/-- `code` with record `r` at index `k`, padded with NOP records where it is shorter. -/
def placeAt (code : List Record) (k : Nat) (r : Record) : List Record :=
  code.take k ++ List.replicate (k - code.length) paddingRecord ++ [r] ++ code.drop (k + 1)

/-- The pc value can name a record: it is CODE_BASE plus a multiple of W, from CODE_BASE up (20_memory.md R61). -/
def namesSlot (c : Config) (p : Word) : Bool :=
  decide (0 ≤ s32 p - c.codeBase ∧ (s32 p - c.codeBase) % c.stride = 0)

/-- The state whose next fetch sub-step, left alone by older instructions, reads `r`: the record lies where pc points
(where pc can name no record, at CODE_BASE with pc there), the block is running, and fetch is enabled, not stalled
and not delayed. -/
def placeFetched (r : Record) (s : State) : State :=
  let p := if namesSlot s.cfg s.pc then s.pc else wrap32 s.cfg.codeBase
  { s with
    code := placeAt s.code ((s32 p - s.cfg.codeBase) / s.cfg.stride).toNat r
    pc := p
    f := { s.f with valid := true, stall := false }
    d := { s.d with stall := false }
    redirectPending := false
    status := .running }

end Sys2Proof.Machine
end

