-- ==== Sys2Proof/Machine/Step.lean ====
section
/-!
DEFINITION. The step: one clock cycle of the block (00_scope.md R15, 60_exceptions.md R262), and the placing of an
instruction where the next cycle fetches it.
-/

namespace Sys2Proof.Machine

/-- One `step` of the host interface (60_exceptions.md R262): one cycle while the status is Running, nothing once it is
Halted, Faulted or Stopped. A block with an empty code memory does not exist (R255; log 5). -/
def step (s : State) : Host.Outcome State Fault Refusal :=
  match s.status with
  | .running => if s.code.isEmpty then .refused .constructionFailure else cycle s
  | .halted => .next s
  | .faulted _ => .next s
  | .stopped => .next s

/-- `s` with the instruction whose bits are `w` stored where the next fetch sub-step reads: it stands for the load of a
program (log 5, log 14). A word that the loader refuses leaves no program (60_exceptions.md R255). -/
def State.withFetchWord (s : State) (nbits w : Nat) : State :=
  match decode s.cfg.numRegs (tableWord nbits w) with
  | .ok r => placeFetched r s
  | .error _ => { s with code := [] }

end Sys2Proof.Machine
end

