-- ==== Sys2Proof/Machine/HostPort.lean ====
section
/-!
DEFINITION. The host's side of the block: load and reset, quit, report, the read-only views and the single-step setting
(60_exceptions.md R255, R262 to R267; 10_state.md R40 to R45; 70_reset_and_hazards.md R280, R284).
-/

namespace Sys2Proof.Machine

/-- Load then reset (70_reset_and_hazards.md R284): the block right after reset with the program in code memory, or the
load-time failure, with which no block is created (60_exceptions.md R255). `delivered` is what the loader returns, none for
a null program, and `allocates` whether allocation succeeds. R255 and R284 place allocation nowhere among the checks: that
a failed one names the failure before any word is looked at is the model's choice (DESIGN CHOICE, log 13). -/
def launch (cfg : Config) (delivered : Option (List CodeWord)) (allocates : Bool) (rInit dmInit : List Word) :
    Except LoadFailure State :=
  match delivered, allocates with
  | none, _ => .error .constructionFailure
  | some _, false => .error .constructionFailure
  | some program, true =>
    match loadProgram cfg program with
    | .ok code => .ok (State.resetWith cfg code rInit dmInit)
    | .error x => .error x

/-- `quit` (60_exceptions.md R264): between cycles of a running block, `status` becomes Stopped and nothing else
changes. -/
def quit (s : State) : State :=
  match s.status with
  | .running => { s with status := .stopped }
  | .halted | .faulted _ | .stopped => s

/-- The output `halted` (10_state.md R44). -/
def halted (s : State) : Bool := s.status == .halted

/-- The output `faulted(record)` (10_state.md R44). -/
def faulted (s : State) : Option FaultRecord :=
  match s.status with
  | .faulted x => some x
  | .running | .halted | .stopped => none

/-- The final report (60_exceptions.md R265). -/
structure Report where
  clock : Nat
  completed : Nat
  fault : Option FaultRecord
deriving DecidableEq, Repr

/-- `report`: allowed once the run has ended (60_exceptions.md R262, R265, R266). -/
def report (s : State) : Option Report :=
  match s.status with
  | .running => none
  | .halted | .faulted _ | .stopped => some { clock := s.clock, completed := s.completed, fault := faulted s }

/-- What the host may read by the table of 10_state.md R40, column "host access": every row but `redirect_pending`, whose
access is "none" (log 19). -/
structure HostView where
  pc : Word
  z : Bool
  n : Bool
  p : Bool
  clock : Nat
  completed : Nat
  fetchEnable : Bool
  fStall : Bool
  dStall : Bool
  status : Status
deriving DecidableEq, Repr

/-- The control and status state as R40 opens it to the host. -/
def hostView (s : State) : HostView :=
  { pc := s.pc, z := s.z, n := s.n, p := s.p, clock := s.clock, completed := s.completed, fetchEnable := s.f.valid,
    fStall := s.f.stall, dStall := s.d.stall, status := s.status }

/-- What the trace port shows (10_state.md R45): the latches and the register file. -/
structure TracePort where
  f : Latch
  d : Latch
  e : Latch
  m : Latch
  wb : Latch
  regs : List Word
deriving DecidableEq, Repr

/-- The trace port (10_state.md R45, 60_exceptions.md R267). -/
def tracePort (s : State) : TracePort := { f := s.f, d := s.d, e := s.e, m := s.m, wb := s.wb, regs := s.regs }

/-- The two answers the spec gives to whether the host may read `redirect_pending`. No ruling of 90_conflicts.md chooses, so
what the host reads takes the answer as an argument (log 19). -/
inductive HostRuling where
  /-- A view of every state item (60_exceptions.md R262, 10_state.md R44). -/
  | everyItem
  /-- The host-access table, whose row for `redirect_pending` says "none" (10_state.md R40). -/
  | accessTable
deriving DecidableEq, Repr

/-- What the operation `trace` shows (60_exceptions.md R262, 10_state.md R44, R46). -/
structure TraceView where
  f : Latch
  d : Latch
  e : Latch
  m : Latch
  wb : Latch
  regs : List Word
  pc : Word
  z : Bool
  n : Bool
  p : Bool
  clock : Nat
  completed : Nat
  /-- None where the host has no access to it. -/
  redirectPending : Option Bool
  btb : List BtbEntry
  dm : Memory
  status : Status
deriving DecidableEq, Repr

/-- The operation `trace`: the read-only view of every state item (60_exceptions.md R262, 10_state.md R44), or of every one
that the table of R40 opens to the host, as the ruling says. -/
def trace (ruling : HostRuling) (s : State) : TraceView :=
  { f := s.f, d := s.d, e := s.e, m := s.m, wb := s.wb, regs := s.regs, pc := s.pc, z := s.z, n := s.n, p := s.p,
    clock := s.clock, completed := s.completed, btb := s.btb, dm := s.dm, status := s.status,
    redirectPending :=
      match ruling with
      | .everyItem => some s.redirectPending
      | .accessTable => none }

/-- A host that runs at most one cycle per entry of `quits`. With single-step enabled it reads, after each completed
cycle, the caller's decision (true is quit, false is go); with it disabled it repeats `step` while the status is
Running (60_exceptions.md R263). -/
def drive (singleStep : Bool) : List Bool → State → Res
  | [], s => .next s
  | q :: qs, s =>
    match step s with
    | .next t => if singleStep && q then .next (quit t) else drive singleStep qs t
    | .fault x => .fault x
    | .refused x => .refused x

end Sys2Proof.Machine
end

