-- ==== Sys2Proof/Machine/Sequential.lean ====
section
/-!
DEFINITION. One-instruction-at-a-time execution in program order, as 43_control.md R222 and 40_pipeline_engine.md R152
speak of it: the software-visible state, the effect of an instruction on it, and what the software-visible state of a
pipeline becomes when the instructions in flight are completed. The step never uses this file; the refinement
statements compare the pipeline with it.
-/

namespace Sys2Proof.Machine

/-- The state a program can observe: registers, pc, flags, data memory. -/
structure Arch where
  regs : List Word
  pc : Word
  z : Bool
  n : Bool
  p : Bool
  dm : Memory
deriving DecidableEq, Repr

/-- The value of register `r`. -/
def Arch.reg (a : Arch) (r : Reg) : Word := a.regs.getD r.toNat 0

/-- Register `r` replaced by `v`. -/
def Arch.setReg (a : Arch) (r : Reg) (v : Word) : Arch := { a with regs := a.regs.set r.toNat v }

/-- Register `r` replaced by `v`, and Z from it. -/
def Arch.setRegZ (a : Arch) (r : Reg) (v : Word) : Arch := { a.setReg r v with z := zeroFlag v }

/-- The instruction leaves the sequential path under flags `z`, `n`, `p` (43_control.md R211 to R218). -/
def transfers (i : Instr) (z n p : Bool) : Bool :=
  match i with
  | .bz _ => z
  | .bnz _ => !z
  | .bp _ => p
  | .bnp _ => !p
  | .bn _ => n
  | .bnn _ => !n
  | .jump .. | .jal .. => true
  | .nop | .add .. | .sub .. | .and .. | .or .. | .xor .. | .addl .. | .subl .. | .movc .. | .load .. | .store ..
  | .cmp .. | .halt => false

/-- The target of a control transfer at address `at0` whose base register holds `x` (43_control.md R210, R217, R218). -/
def transferTarget (i : Instr) (at0 x : Word) : Word :=
  match i with
  | .bz imm | .bnz imm | .bp imm | .bnp imm | .bn imm | .bnn imm => addWrap at0 imm
  | .jump _ imm | .jal _ _ imm => addWrap x imm
  | .nop | .add .. | .sub .. | .and .. | .or .. | .xor .. | .addl .. | .subl .. | .movc .. | .load .. | .store ..
  | .cmp .. | .halt => at0

/-- The effect of instruction `i` at address `at0` with operand values `x` of rs1 and `y` of rs2, on a state whose pc is
already the address after `i`. None where the instruction is a data access outside data memory. -/
def effect (c : Config) (at0 : Word) (i : Instr) (x y : Word) (a : Arch) : Option Arch :=
  match i with
  | .add rd _ _ => some (a.setRegZ rd (addWrap x y))
  | .sub rd _ _ => some (a.setRegZ rd (subWrap x y))
  | .and rd _ _ => some (a.setReg rd (x &&& y))
  | .or rd _ _ => some (a.setReg rd (x ||| y))
  | .xor rd _ _ => some (a.setReg rd (x ^^^ y))
  | .addl rd _ imm => some (a.setRegZ rd (addWrap x imm))
  | .subl rd _ imm => some (a.setRegZ rd (subWrap x imm))
  | .movc rd imm => some (a.setReg rd imm)
  | .cmp _ _ => some { a with z := cmpZ x y, n := cmpN x y, p := cmpP x y }
  | .load rd _ imm =>
    if dataInRange c (addWrap x imm) then some (a.setReg rd (a.dm.read (s32 (addWrap x imm)).toNat)) else none
  | .store _ _ imm =>
    if dataInRange c (addWrap x imm) then some { a with dm := a.dm.write (s32 (addWrap x imm)).toNat y } else none
  | .jal rd _ _ => some { a.setReg rd (nextPc c at0) with pc := transferTarget i at0 x }
  | .jump _ _ => some { a with pc := transferTarget i at0 x }
  | .bz _ | .bnz _ | .bp _ | .bnp _ | .bn _ | .bnn _ =>
    some (if transfers i a.z a.n a.p then { a with pc := transferTarget i at0 x } else a)
  | .halt | .nop => some a

/-- The effect of an instruction whose operands are the registers as they stand. -/
def effectInOrder (c : Config) (at0 : Word) (i : Instr) (a : Arch) : Option Arch :=
  effect c at0 i (a.reg i.record.rs1) (a.reg i.record.rs2) a

/-- One instruction executed alone: the record at pc, pc advanced by W, its effect (43_control.md R222). None where no
record lies at pc or a data access is out of range. -/
def sequentialStep (c : Config) (code : List Record) (a : Arch) : Option Arch :=
  match codeAt c code a.pc with
  | none => none
  | some r => effectInOrder c a.pc r.instr { a with pc := nextPc c a.pc }

/-- The software-visible part of a state, instructions in flight left out. -/
def visible (s : State) : Arch := { regs := s.regs, pc := s.pc, z := s.z, n := s.n, p := s.p, dm := s.dm }

/-- The instruction in WB completed: its register written. -/
def completeWb (l : Latch) (a : Arch) : Arch :=
  if l.valid && isWriter l.op then a.setReg l.rd l.resultBuffer else a

/-- The instruction in M completed: its data access done and its register written. -/
def completeM (c : Config) (l : Latch) (a : Arch) : Option Arch :=
  if !l.valid then some a
  else if l.op = .load then
    if dataInRange c l.memoryAddress then some (a.setReg l.rd (a.dm.read (s32 l.memoryAddress).toNat)) else none
  else if l.op = .store then
    if dataInRange c l.memoryAddress then
      some { a with dm := a.dm.write (s32 l.memoryAddress).toNat l.resultBuffer }
    else none
  else some (if isWriter l.op then a.setReg l.rd l.resultBuffer else a)

/-- The instruction in E completed, with the operand values it was decoded with. -/
def completeE (c : Config) (l : Latch) (a : Arch) : Option Arch :=
  if l.valid then effect c l.pc l.instr l.rs1Value l.rs2Value a else some a

/-- The instruction in D completed, with the registers as the older ones leave them. -/
def completeD (c : Config) (l : Latch) (a : Arch) : Option Arch :=
  if l.valid then effectInOrder c l.pc l.instr a else some a

/-- The instruction in E leaves the sequential path, so that the one in D is flushed. -/
def eTransfers (s : State) : Bool := s.e.valid && transfers s.e.instr s.z s.n s.p

/-- The software-visible state once the instructions in flight have completed in program order (WB, M, E, then D unless
E flushes it). None where one of them is a data access out of range. -/
def settled (s : State) : Option Arch :=
  match completeM s.cfg s.m (completeWb s.wb (visible s)) with
  | none => none
  | some a =>
    match completeE s.cfg s.e a with
    | none => none
    | some b => if eTransfers s then some b else completeD s.cfg s.d b

/-- The cycle from `s` to `t` fetches an instruction of the program's path: its fetch sub-step reads a record, and
neither the instruction that executed nor the one that was decoded leaves the sequential path. -/
def fetchesOnPath (s t : State) : Bool :=
  !s.f.stall && s.f.valid && !s.redirectPending && !eTransfers s && !eTransfers t

/-- The one software-visible data hazard (70_reset_and_hazards.md R286): a LOAD into R0 in E directly followed by a
reader of R0 in D. -/
def loadUseR0 (s : State) : Bool :=
  s.e.valid && s.e.op == .load && s.e.rd == 0 && s.d.valid && readsReg s.d 0

end Sys2Proof.Machine
end

