-- ==== Sys2Proof/Safety.lean ====
section
/-!
DEFINITION. What counts as a safe state and a safe run: the invariant of the pipeline (40_pipeline_engine.md R146 to
R151 and what 00_scope.md R6, 10_state.md R20, R35, R36 and 30_encoding.md R86 say every block satisfies), and the
normal form that forgets don't-care fields (30_encoding.md R85).
-/

namespace Sys2Proof.Machine

/-- A latch holds a legal instruction if it holds one: every used register index below NUM_REGS (30_encoding.md R86),
and never NOP, which the fetch sub-step drops (40_pipeline_engine.md R114). -/
def Latch.legal (numRegs : Nat) (l : Latch) : Prop :=
  l.valid = true → l.instr.wf numRegs = true ∧ l.op ≠ .nop

/-- A latch holds a HALT. -/
def Latch.isHalt (l : Latch) : Prop := l.valid = true ∧ l.op = .halt

/-- The invariant of a block at a cycle boundary. -/
structure State.Inv (s : State) : Prop where
  /-- The parameters satisfy 00_scope.md R6. -/
  cfgLegal : s.cfg.wf = true
  /-- Code memory fits the pc range (R6). -/
  codeFits : s.cfg.fits s.code.length = true
  /-- Every record is one the loader admits (30_encoding.md R86). -/
  codeLegal : ∀ r ∈ s.code, r.instr.wf s.cfg.numRegs = true
  /-- There are NUM_REGS registers (10_state.md R20). -/
  regCount : s.regs.length = s.cfg.numRegs
  /-- Data memory is in its canonical form. -/
  dmForm : s.dm.wf = true
  /-- Data memory lists only words below DATA_WORDS (20_memory.md R63). -/
  dmRange : ∀ x ∈ s.dm, x.1 < s.cfg.dataWords
  /-- The BTB is in its reset state (40_pipeline_engine.md R144). -/
  btbCold : s.btb = List.replicate s.cfg.btbEntries BtbEntry.empty
  /-- The stall bits of E, M and WB are 0 (R147). -/
  noStallE : s.e.stall = false
  noStallM : s.m.stall = false
  noStallWb : s.wb.stall = false
  /-- The two stall bits are equal (R148) and are what the last hazard check wrote (R136). -/
  stallPair : s.d.stall = s.f.stall
  stallIsHazard : s.f.stall = hazardCondition s
  /-- A pending redirect leaves fetch enabled and D empty (R107, R124). -/
  pendingEnabled : s.redirectPending = true → s.f.valid = true ∧ s.d.valid = false
  /-- The instructions in flight are legal. -/
  legalD : s.d.legal s.cfg.numRegs
  legalE : s.e.legal s.cfg.numRegs
  legalM : s.m.legal s.cfg.numRegs
  legalWb : s.wb.legal s.cfg.numRegs
  /-- A HALT in flight has disabled fetch and nothing younger is behind it (R113, R151). -/
  haltD : s.d.isHalt → s.f.valid = false
  haltE : s.e.isHalt → s.f.valid = false ∧ s.d.valid = false
  haltM : s.m.isHalt → s.f.valid = false ∧ s.d.valid = false ∧ s.e.valid = false
  haltWb : s.wb.isHalt → s.f.valid = false ∧ s.d.valid = false ∧ s.e.valid = false ∧ s.m.valid = false
  /-- Between cycles the sequencer rests. -/
  seqRests : s.seq = Sequencer.rest

/-- A run of at most `k` cycles from `s` stops without a fault: the state it reaches is not Faulted. -/
def runsSafely (k : Nat) (s : State) : Prop :=
  ∀ t, drive false (List.replicate k false) s = .next t → faulted t = none

/-! ### Forgetting the don't-care fields -/

/-- A latch with the fields its instruction's format does not use set to 0 (30_encoding.md R85). -/
def Latch.normal (l : Latch) : Latch :=
  let r := l.instr.record
  { l with rd := r.rd, rs1 := r.rs1, rs2 := r.rs2, imm := r.imm }

/-- A state with every don't-care field of code memory and of the latches set to 0. -/
def State.normal (s : State) : State :=
  { s with
    code := s.code.map Record.normal
    f := s.f.normal
    d := s.d.normal
    e := s.e.normal
    m := s.m.normal
    wb := s.wb.normal }

/-- An outcome with every don't-care field of its next state set to 0. -/
def normalOutcome : Res → Res
  | .next t => .next t.normal
  | .fault x => .fault x
  | .refused x => .refused x

end Sys2Proof.Machine
end

