-- ==== Sys2Proof/Certificates/Slice0/Obligations.lean ====
section
/-!
DEFINITION. The statements for the provers. Each names the rules of spec/ it rests on. `Sys2Proof.Claims` holds the
shapes that several statements share: what an instruction's part in one stage is, in the words of 40_pipeline_engine.md.
A stage part that is said to be `.next t` with `t` written out is also the instruction's frame: every field `t` does not
name is unchanged.
-/

namespace Sys2Proof.Claims

open Sys2Proof.Machine

/-- In the fetch sub-step the instruction only advances pc by W and is copied into D (R111, R112). -/
def passesFetch (i : Instr) : Prop :=
  ∀ s : State, s.seq.stage = .fetch →
    exec i s = .next { s with pc := wrap32 (s32 s.pc + s.cfg.stride), d := s.f }

/-- In the decode sub-step the instruction reads no register and moves to E (R116, R117). -/
def readsNone (i : Instr) : Prop :=
  ∀ s : State, s.seq.stage = .decode → exec i s = .next { s with e := s.d, d := { s.d with valid := false } }

/-- In the decode sub-step the instruction reads register `rs1` through the forwarding mux and moves to E (R116 to
R118). -/
def readsFirst (i : Instr) (rs1 : Reg) : Prop :=
  ∀ (s : State) (x : Word), s.seq.stage = .decode → fwd s rs1 = some x →
    exec i s = .next
      { s with
        e := { s.d with rs1Value := x }
        d := { s.d with rs1Value := x, valid := false } }

/-- In the decode sub-step the instruction reads registers `rs1` and `rs2` through the forwarding mux and moves to E. -/
def readsBoth (i : Instr) (rs1 rs2 : Reg) : Prop :=
  ∀ (s : State) (x y : Word), s.seq.stage = .decode → fwd s rs1 = some x → fwd s rs2 = some y →
    exec i s = .next
      { s with
        e := { s.d with rs1Value := x, rs2Value := y }
        d := { s.d with rs1Value := x, rs2Value := y, valid := false } }

/-- In the execute sub-step the instruction leaves result `v s` in its latch and Z as `z s`, and moves to M. -/
def executesTo (i : Instr) (v : State → Word) (z : State → Bool) : Prop :=
  ∀ s : State, s.seq.stage = .execute →
    exec i s = .next
      { s with
        z := z s
        m := { s.e with resultBuffer := v s }
        e := { s.e with resultBuffer := v s, valid := false } }

/-- In the memory sub-step the instruction only moves to WB (R129, R130). -/
def passesMemory (i : Instr) : Prop :=
  ∀ s : State, s.seq.stage = .memory → exec i s = .next { s with wb := s.m, m := { s.m with valid := false } }

/-- In the writeback sub-step register `rd`, R0 included, takes the result, and the instruction is counted and gone
(R132 to R134). -/
def writesBack (i : Instr) (rd : Reg) : Prop :=
  ∀ s : State, s.seq.stage = .writeback → rd.toNat < s.regs.length →
    exec i s = .next
      { s with
        regs := s.regs.set rd.toNat s.wb.resultBuffer
        completed := s.completed + 1
        wb := { s.wb with valid := false } }

/-- In the writeback sub-step no register is written; the instruction is counted and gone (R133, R134). -/
def writesNothingBack (i : Instr) : Prop :=
  ∀ s : State, s.seq.stage = .writeback →
    exec i s = .next { s with completed := s.completed + 1, wb := { s.wb with valid := false } }

/-- The state after `redirect(target)` and the move to M of the instruction in E, whose latch then holds result `v`
(R124, R125). -/
def redirected (s : State) (target v : Word) : State :=
  { s with
    pc := target
    redirectPending := true
    f := { s.f with valid := true }
    d := { s.d with valid := false }
    m := { s.e with resultBuffer := v }
    e := { s.e with resultBuffer := v, valid := false } }

/-- In the execute sub-step the branch redirects to its own pc plus `imm` when `taken s`, and changes nothing otherwise;
it moves to M (R210). -/
def branches (i : Instr) (imm : Word) (taken : State → Bool) : Prop :=
  ∀ s : State, s.seq.stage = .execute →
    (taken s = true → exec i s = .next (redirected s (wrap32 (s32 s.e.pc + s32 imm)) s.e.resultBuffer)) ∧
    (taken s = false → exec i s = .next { s with m := s.e, e := { s.e with valid := false } })

/-- Everything but the execute part of a conditional branch. -/
def branchPasses (i : Instr) : Prop :=
  passesFetch i ∧ readsNone i ∧ passesMemory i ∧ writesNothingBack i

/-- A cycle of a running block that ends without a fault. -/
def cleanCycle (s t : State) : Prop :=
  s.status = .running ∧ step s = .next t ∧ faulted t = none

/-- A data access out of range waits in M (R250). -/
def dataFaultInM (s : State) : Prop :=
  s.m.valid = true ∧ (s.m.op = .load ∨ s.m.op = .store) ∧
    ¬(0 ≤ s32 s.m.memoryAddress ∧ s32 s.m.memoryAddress < s.cfg.dataWords)

/-- `USED_REG_FIELDS` of R89, mnemonic by mnemonic from the formats of R83. -/
def usedFields (r : Record) : List Reg :=
  (if r.op ∈ [Op.add, .sub, .and, .or, .xor, .addl, .subl, .movc, .load, .jal] then [r.rd] else []) ++
  (if r.op ∈ [Op.add, .sub, .and, .or, .xor, .addl, .subl, .load, .jal, .store, .cmp, .jump] then [r.rs1] else []) ++
  (if r.op ∈ [Op.add, .sub, .and, .or, .xor, .store, .cmp] then [r.rs2] else [])

/-- The software-visible state once WB and M have completed. -/
def afterM (s : State) : Option Arch := completeM s.cfg s.m (completeWb s.wb (visible s))

end Sys2Proof.Claims

open Sys2Proof Sys2Proof.Machine Sys2Proof.Claims

/-! ### Encoding and load -/

/-- R81, R82, R89: every record with legal used registers, its don't-care fields included, decodes from its word. -/
def Obligations.DecodeReadsBackEveryLegalRecord : Prop :=
  ∀ (n : Nat) (r : Record), r.instr.wf n = true → decode n r.word = .ok r

/-- R81, R82, R83: every instruction, with every operand at every legal value, decodes from its encoding. -/
def Obligations.DecodeOfEncodeIsTheInstruction : Prop :=
  ∀ (n : Nat) (i : Instr), i.wf n = true → decodeInstr n (encode i) = .ok i

/-- R81, R89: a word the decoder accepts is the word of the record it gives, so no bit is dropped. -/
def Obligations.AcceptedWordIsItsRecordsWord : Prop :=
  ∀ (n : Nat) (w : CodeWord) (r : Record), decode n w = .ok r → r.word = w

/-- R89: the three checks in their order, and the fields of an accepted word, by arithmetic on the word's value; the used
register fields as R89 lists them. -/
def Obligations.DecoderChecksInOrder : Prop :=
  ∀ (n : Nat) (w : CodeWord),
    (20 < w.toNat / 2 ^ 58 → decode n w = .error .badOpcode) ∧
    (w.toNat / 2 ^ 58 ≤ 20 → w.toNat / 2 ^ 32 % 2 ^ 8 ≠ 0 → decode n w = .error .reservedBits) ∧
    (w.toNat / 2 ^ 58 ≤ 20 → w.toNat / 2 ^ 32 % 2 ^ 8 = 0 →
      ∃ r : Record, r.op.opc.toNat = w.toNat / 2 ^ 58 ∧ r.rd.toNat = w.toNat / 2 ^ 52 % 2 ^ 6 ∧
        r.rs1.toNat = w.toNat / 2 ^ 46 % 2 ^ 6 ∧ r.rs2.toNat = w.toNat / 2 ^ 40 % 2 ^ 6 ∧
        r.imm.toNat = w.toNat % 2 ^ 32 ∧
        ((∀ f ∈ usedFields r, f.toNat < n) → decode n w = .ok r) ∧
        ((∃ f ∈ usedFields r, n ≤ f.toNat) → decode n w = .error .badRegister))

/-- R92: the six encoding examples of the spec, read and written. -/
def Obligations.EncodingExamplesOfTheSpec : Prop :=
  (decodeInstr 16 0x2010000000000005 = .ok (.movc 1 5) ∧ encode (.movc 1 5) = 0x2010000000000005) ∧
  (decodeInstr 16 0x0430420000000000 = .ok (.add 3 1 2) ∧ encode (.add 3 1 2) = 0x0430420000000000) ∧
  (decodeInstr 16 0x3000000000000008 = .ok (.bz 8) ∧ encode (.bz 8) = 0x3000000000000008) ∧
  (decodeInstr 16 0x34000000FFFFFFF8 = .ok (.bnz (wrap32 (-8))) ∧ encode (.bnz (wrap32 (-8))) = 0x34000000FFFFFFF8) ∧
  (decodeInstr 16 0x5000000000000000 = .ok .halt ∧ encode .halt = 0x5000000000000000) ∧
  (decodeInstr 16 0x0000000000000000 = .ok .nop ∧ encode .nop = 0x0000000000000000)

/-- R255, R284: a null or empty program or a failed allocation creates no block; code memory after a load is the decoded
program, record by record. That a failed allocation is named CONSTRUCTION_FAILURE also where a word is bad is the model's
choice (DESIGN CHOICE, log 13): R255 and R284 place allocation nowhere among the checks of the words. -/
def Obligations.LoadedCodeIsTheDecodedProgram : Prop :=
  (∀ (c : Config) (delivered : Option (List CodeWord)) (allocates : Bool) (rInit dmInit : List Word),
    delivered = none ∨ delivered = some [] ∨ allocates = false →
      launch c delivered allocates rInit dmInit = .error .constructionFailure) ∧
  ∀ (c : Config) (delivered : Option (List CodeWord)) (allocates : Bool) (rInit dmInit : List Word) (s : State),
    launch c delivered allocates rInit dmInit = .ok s →
    ∃ ws : List CodeWord, delivered = some ws ∧ ws ≠ [] ∧ s.code.length = ws.length ∧
      c.codeBase + ws.length * c.stride ≤ 2 ^ 31 ∧
      ∀ (k : Nat) (w : CodeWord), ws[k]? = some w → ∃ r, s.code[k]? = some r ∧ decode c.numRegs w = .ok r

/-- R86, R255, and the model's choice of log 13 among several bad words: a program that fits and holds a word the decoder
refuses is refused by the name of the first such word. -/
def Obligations.LoadRefusesByTheFirstBadWord : Prop :=
  ∀ (c : Config) (before : List CodeWord) (bad : CodeWord) (after : List CodeWord) (x : LoadFailure),
    c.fits (before ++ bad :: after).length = true →
    (∀ w ∈ before, ∃ r, decode c.numRegs w = .ok r) → decode c.numRegs bad = .error x →
    loadProgram c (before ++ bad :: after) = .error x

/-! ### Reset and the invariant -/

/-- R46, R280: the value of every state item after reset, for every value of the parameters and the launch inputs. That
the op field 0 of a latch is NOP is the model's reading (log 10). -/
def Obligations.ResetGivesEveryStateItem : Prop :=
  ∀ (cfg : Config) (code : List Record) (rInit dmInit : List Word),
    let s := State.resetWith cfg code rInit dmInit
    s.cfg = cfg ∧ s.code = code ∧
    s.regs.length = cfg.numRegs ∧ (∀ k, k < cfg.numRegs → s.regs[k]? = some (rInit.getD k 0)) ∧
    (∀ a, a < cfg.dataWords → s.dm.read a = dmInit.getD a 0) ∧
    s.pc = wrap32 cfg.codeBase ∧ s.z = false ∧ s.n = false ∧ s.p = false ∧ s.clock = 0 ∧ s.completed = 0 ∧
    s.f = { Latch.zero with valid := true } ∧
    s.d = Latch.zero ∧ s.e = Latch.zero ∧ s.m = Latch.zero ∧ s.wb = Latch.zero ∧
    s.redirectPending = false ∧
    s.btb.length = cfg.btbEntries ∧ (∀ x ∈ s.btb, x.tag = none ∧ x.history = 0 ∧ x.target = none) ∧
    s.status = .running

/-- R284, R46 and the derived invariants R146 to R151: every block a load and a reset create satisfies the invariant. -/
def Obligations.LaunchedBlockSatisfiesInvariant : Prop :=
  ∀ (cfg : Config) (delivered : Option (List CodeWord)) (allocates : Bool) (rInit dmInit : List Word) (s : State),
    cfg.wf = true → launch cfg delivered allocates rInit dmInit = .ok s → s.Inv

/-- The model's own reset state (log 2 to log 5: the default parameters, zero launch inputs, no program) satisfies the
invariant. -/
def Obligations.ResetStateSatisfiesInvariant : Prop := State.reset.Inv

/-- R146 to R151: every step keeps the invariant. -/
def Obligations.EveryStepKeepsInvariant : Prop :=
  ∀ s t : State, s.Inv → step s = .next t → t.Inv

/-- R86, R252: a block that satisfies the invariant and holds a program always steps; a run-time fault is a next state
whose status is Faulted (log 7), never an outcome of the step, in any state. -/
def Obligations.EveryBlockSteps : Prop :=
  (∀ s : State, s.Inv → s.code ≠ [] → ∃ t, step s = .next t) ∧ ∀ (s : State) (x : Fault), step s ≠ .fault x

/-! ### The step and the instructions it runs -/

/-- R100, R110: with the older latches empty and fetch free to read, a step is the fetch part of the record at pc, then
the hazard re-check and the end of the cycle. -/
def Obligations.StepRunsTheFetchedInstruction : Prop :=
  ∀ (s : State) (r : Record), s.status = .running → codeRead s s.pc = some r →
    s.f.valid = true → s.f.stall = false → s.redirectPending = false → (∀ x ∈ s.btb, x.tag = none) →
    s.d.valid = false → s.e.valid = false → s.m.valid = false → s.wb.valid = false →
    ∃ t, exec r.instr (atStage .fetch (latchFetched r s)) = .next t ∧
      step s = .next
        { t with
          f := { t.f with stall := false }
          d := { t.d with stall := false }
          clock := s.clock + 1
          status := if t.seq.haltSeen then .halted else .running
          seq := Sequencer.rest }

/-- Log 5, log 14: a word of the opcode table placed after reset is in code memory and is the first instruction the next
step runs. -/
def Obligations.PlacedWordIsTheFirstInstructionRun : Prop :=
  ∀ (nbits w : Nat) (i : Instr), decodeTableWord nbits w = some i →
    ∃ (r : Record) (t : State), r.instr = i ∧
      State.reset.withFetchWord nbits w = { State.reset with code := [r] } ∧
      exec i (atStage .fetch (latchFetched r { State.reset with code := [r] })) = .next t ∧
      step (State.reset.withFetchWord nbits w) = .next (endCycle (hazardCheck t))

/-- R103, R115, R122, R126, R131: a stage runs the part of the instruction in its valid, unstalled latch, and does nothing
with a bubble or a stalled latch. -/
def Obligations.StageRunsItsLatchsInstruction : Prop :=
  ∀ s : State,
    (s.wb.valid = true → s.wb.stall = false → writebackStep s = exec s.wb.instr (atStage .writeback s)) ∧
    (s.m.valid = true → s.m.stall = false → memoryStep s = exec s.m.instr (atStage .memory s)) ∧
    (s.e.valid = true → s.e.stall = false → executeStep s = exec s.e.instr (atStage .execute s)) ∧
    (s.d.valid = true → s.d.stall = false → decodeStep s = exec s.d.instr (atStage .decode s)) ∧
    (s.wb.valid = false ∨ s.wb.stall = true → writebackStep s = .next s) ∧
    (s.m.valid = false ∨ s.m.stall = true → memoryStep s = .next s) ∧
    (s.e.valid = false ∨ s.e.stall = true → executeStep s = .next s) ∧
    (s.d.valid = false ∨ s.d.stall = true → decodeStep s = .next s)

/-- R100: the sub-steps in their order, then the hazard re-check, the clock and the halt. -/
def Obligations.CycleRunsTheSubStepsInOrder : Prop :=
  ∀ s a b c d e : State, s.status = .running → s.code ≠ [] →
    writebackStep s = .next a → memoryStep a = .next b → executeStep b = .next c → decodeStep c = .next d →
    fetchStep d = .next e →
    step s = .next
      { hazardCheck e with
        clock := e.clock + 1
        status := if e.seq.haltSeen then .halted else e.status
        seq := Sequencer.rest }

/-- R252, R250, R251: a fault ends the run with the state at the start of its sub-step, `clock` not incremented and the
record in `status`; no further cycle runs. That this is a next state of the step is the model's form (log 7). -/
def Obligations.FaultStopsTheRun : Prop :=
  (∀ (s a : State) (x : Fault), s.status = .running → s.code ≠ [] → writebackStep s = .next a →
    memoryStep a = .fault x →
    let t : State := { a with status := .faulted (x.record a.clock), seq := Sequencer.rest }
    step s = .next t ∧ step t = .next t) ∧
  (∀ (s a b c d : State) (x : Fault), s.status = .running → s.code ≠ [] → writebackStep s = .next a →
    memoryStep a = .next b → executeStep b = .next c → decodeStep c = .next d → fetchStep d = .fault x →
    let t : State := { d with status := .faulted (x.record d.clock), seq := Sequencer.rest }
    step s = .next t ∧ step t = .next t) ∧
  (∀ (k : Nat) (pc addr : Word) (op : Op),
    Fault.record k (.fetchOutOfRange pc) =
      { kind := .fetchOutOfRange, code := 1, pc := pc, op := none, addr := none, clock := k } ∧
    Fault.record k (.dataOutOfRange pc op addr) =
      { kind := .dataOutOfRange, code := 2, pc := pc, op := some op, addr := some addr, clock := k })

/-- R37, R252, R262, R269: a Halted, Faulted or Stopped block takes no further cycle and no quit. -/
def Obligations.EndedRunStaysEnded : Prop :=
  ∀ s : State, s.status ≠ .running → step s = .next s ∧ quit s = s

/-! ### The instructions, each in its five stages -/

/-- R161, R162: ADD and SUB. -/
def Obligations.AddAndSubFollowTheirRules : Prop :=
  ∀ rd rs1 rs2 : Reg,
    (passesFetch (.add rd rs1 rs2) ∧ readsBoth (.add rd rs1 rs2) rs1 rs2 ∧
      executesTo (.add rd rs1 rs2) (fun s => wrap32 (s32 s.e.rs1Value + s32 s.e.rs2Value))
        (fun s => decide (wrap32 (s32 s.e.rs1Value + s32 s.e.rs2Value) = 0)) ∧
      passesMemory (.add rd rs1 rs2) ∧ writesBack (.add rd rs1 rs2) rd) ∧
    (passesFetch (.sub rd rs1 rs2) ∧ readsBoth (.sub rd rs1 rs2) rs1 rs2 ∧
      executesTo (.sub rd rs1 rs2) (fun s => wrap32 (s32 s.e.rs1Value - s32 s.e.rs2Value))
        (fun s => decide (wrap32 (s32 s.e.rs1Value - s32 s.e.rs2Value) = 0)) ∧
      passesMemory (.sub rd rs1 rs2) ∧ writesBack (.sub rd rs1 rs2) rd)

/-- R163, R164, R165: AND, OR and XOR write no flag. -/
def Obligations.LogicalInstructionsFollowTheirRules : Prop :=
  ∀ rd rs1 rs2 : Reg,
    (passesFetch (.and rd rs1 rs2) ∧ readsBoth (.and rd rs1 rs2) rs1 rs2 ∧
      executesTo (.and rd rs1 rs2) (fun s => s.e.rs1Value &&& s.e.rs2Value) (fun s => s.z) ∧
      passesMemory (.and rd rs1 rs2) ∧ writesBack (.and rd rs1 rs2) rd) ∧
    (passesFetch (.or rd rs1 rs2) ∧ readsBoth (.or rd rs1 rs2) rs1 rs2 ∧
      executesTo (.or rd rs1 rs2) (fun s => s.e.rs1Value ||| s.e.rs2Value) (fun s => s.z) ∧
      passesMemory (.or rd rs1 rs2) ∧ writesBack (.or rd rs1 rs2) rd) ∧
    (passesFetch (.xor rd rs1 rs2) ∧ readsBoth (.xor rd rs1 rs2) rs1 rs2 ∧
      executesTo (.xor rd rs1 rs2) (fun s => s.e.rs1Value ^^^ s.e.rs2Value) (fun s => s.z) ∧
      passesMemory (.xor rd rs1 rs2) ∧ writesBack (.xor rd rs1 rs2) rd)

/-- R166, R167: ADDL and SUBL. -/
def Obligations.ImmediateArithmeticFollowsItsRules : Prop :=
  ∀ (rd rs1 : Reg) (imm : Word),
    (passesFetch (.addl rd rs1 imm) ∧ readsFirst (.addl rd rs1 imm) rs1 ∧
      executesTo (.addl rd rs1 imm) (fun s => wrap32 (s32 s.e.rs1Value + s32 imm))
        (fun s => decide (wrap32 (s32 s.e.rs1Value + s32 imm) = 0)) ∧
      passesMemory (.addl rd rs1 imm) ∧ writesBack (.addl rd rs1 imm) rd) ∧
    (passesFetch (.subl rd rs1 imm) ∧ readsFirst (.subl rd rs1 imm) rs1 ∧
      executesTo (.subl rd rs1 imm) (fun s => wrap32 (s32 s.e.rs1Value - s32 imm))
        (fun s => decide (wrap32 (s32 s.e.rs1Value - s32 imm) = 0)) ∧
      passesMemory (.subl rd rs1 imm) ∧ writesBack (.subl rd rs1 imm) rd)

/-- R168: MOVC writes no flag. -/
def Obligations.MovcFollowsItsRule : Prop :=
  ∀ (rd : Reg) (imm : Word),
    passesFetch (.movc rd imm) ∧ readsNone (.movc rd imm) ∧
    executesTo (.movc rd imm) (fun _ => imm) (fun s => s.z) ∧
    passesMemory (.movc rd imm) ∧ writesBack (.movc rd imm) rd

/-- R169: CMP writes the three flags, exactly one of them 1, and no register. -/
def Obligations.CmpFollowsItsRule : Prop :=
  ∀ rs1 rs2 : Reg,
    passesFetch (.cmp rs1 rs2) ∧ readsBoth (.cmp rs1 rs2) rs1 rs2 ∧
    (∀ s : State, s.seq.stage = .execute →
      ∃ z n p : Bool, (z, n, p) ∈ [(true, false, false), (false, true, false), (false, false, true)] ∧
        (z = true ↔ s32 s.e.rs1Value = s32 s.e.rs2Value) ∧ (n = true ↔ s32 s.e.rs1Value < s32 s.e.rs2Value) ∧
        (p = true ↔ s32 s.e.rs2Value < s32 s.e.rs1Value) ∧
        exec (.cmp rs1 rs2) s = .next { s with z := z, n := n, p := p, m := s.e, e := { s.e with valid := false } }) ∧
    passesMemory (.cmp rs1 rs2) ∧ writesNothingBack (.cmp rs1 rs2)

/-- R190, R191, R64, R127: LOAD, in range and out of range. -/
def Obligations.LoadFollowsItsRule : Prop :=
  ∀ (rd rs1 : Reg) (imm : Word),
    passesFetch (.load rd rs1 imm) ∧ readsFirst (.load rd rs1 imm) rs1 ∧
    (∀ s : State, s.seq.stage = .execute →
      exec (.load rd rs1 imm) s = .next
        { s with
          m := { s.e with memoryAddress := wrap32 (s32 s.e.rs1Value + s32 imm) }
          e := { s.e with memoryAddress := wrap32 (s32 s.e.rs1Value + s32 imm), valid := false } }) ∧
    (∀ s : State, s.seq.stage = .memory →
      (0 ≤ s32 s.m.memoryAddress → s32 s.m.memoryAddress < s.cfg.dataWords →
        exec (.load rd rs1 imm) s = .next
          { s with
            wb := { s.m with resultBuffer := s.dm.read (s32 s.m.memoryAddress).toNat }
            m := { s.m with resultBuffer := s.dm.read (s32 s.m.memoryAddress).toNat, valid := false } }) ∧
      (s32 s.m.memoryAddress < 0 ∨ s.cfg.dataWords ≤ s32 s.m.memoryAddress →
        exec (.load rd rs1 imm) s = .fault (.dataOutOfRange s.m.pc s.m.op s.m.memoryAddress))) ∧
    writesBack (.load rd rs1 imm) rd

/-- R190, R192, R65, R128: STORE, in range and out of range; only the addressed word of memory changes. -/
def Obligations.StoreFollowsItsRule : Prop :=
  ∀ (rs1 rs2 : Reg) (imm : Word),
    passesFetch (.store rs1 rs2 imm) ∧ readsBoth (.store rs1 rs2 imm) rs1 rs2 ∧
    (∀ s : State, s.seq.stage = .execute →
      exec (.store rs1 rs2 imm) s = .next
        { s with
          m := { s.e with memoryAddress := wrap32 (s32 s.e.rs1Value + s32 imm), resultBuffer := s.e.rs2Value }
          e := { s.e with memoryAddress := wrap32 (s32 s.e.rs1Value + s32 imm), resultBuffer := s.e.rs2Value,
                          valid := false } }) ∧
    (∀ s : State, s.seq.stage = .memory →
      (0 ≤ s32 s.m.memoryAddress → s32 s.m.memoryAddress < s.cfg.dataWords → s.dm.wf = true →
        ∃ dm : Memory, exec (.store rs1 rs2 imm) s = .next { s with dm := dm, wb := s.m, m := { s.m with valid := false } } ∧
          dm.wf = true ∧ dm.read (s32 s.m.memoryAddress).toNat = s.m.resultBuffer ∧
          ∀ a, a ≠ (s32 s.m.memoryAddress).toNat → dm.read a = s.dm.read a) ∧
      (s32 s.m.memoryAddress < 0 ∨ s.cfg.dataWords ≤ s32 s.m.memoryAddress →
        exec (.store rs1 rs2 imm) s = .fault (.dataOutOfRange s.m.pc s.m.op s.m.memoryAddress))) ∧
    writesNothingBack (.store rs1 rs2 imm)

/-- R210 to R216: the six conditional branches, taken and not taken. -/
def Obligations.ConditionalBranchesFollowTheirRules : Prop :=
  ∀ imm : Word,
    (branchPasses (.bz imm) ∧ branches (.bz imm) imm (fun s => s.z)) ∧
    (branchPasses (.bnz imm) ∧ branches (.bnz imm) imm (fun s => !s.z)) ∧
    (branchPasses (.bp imm) ∧ branches (.bp imm) imm (fun s => s.p)) ∧
    (branchPasses (.bnp imm) ∧ branches (.bnp imm) imm (fun s => !s.p)) ∧
    (branchPasses (.bn imm) ∧ branches (.bn imm) imm (fun s => s.n)) ∧
    (branchPasses (.bnn imm) ∧ branches (.bnn imm) imm (fun s => !s.n))

/-- R217, R218: JUMP and JAL, with the link of JAL. -/
def Obligations.JumpAndJalFollowTheirRules : Prop :=
  ∀ (rd rs1 : Reg) (imm : Word),
    (passesFetch (.jump rs1 imm) ∧ readsFirst (.jump rs1 imm) rs1 ∧
      (∀ s : State, s.seq.stage = .execute →
        exec (.jump rs1 imm) s = .next (redirected s (wrap32 (s32 s.e.rs1Value + s32 imm)) s.e.resultBuffer)) ∧
      passesMemory (.jump rs1 imm) ∧ writesNothingBack (.jump rs1 imm)) ∧
    (passesFetch (.jal rd rs1 imm) ∧ readsFirst (.jal rd rs1 imm) rs1 ∧
      (∀ s : State, s.seq.stage = .execute →
        exec (.jal rd rs1 imm) s = .next
          (redirected s (wrap32 (s32 s.e.rs1Value + s32 imm)) (wrap32 (s32 s.e.pc + s.cfg.stride)))) ∧
      passesMemory (.jal rd rs1 imm) ∧ writesBack (.jal rd rs1 imm) rd)

/-- R113, R114, R133 to R135, R240, R241: HALT stops fetching and signals the halt when it retires; NOP is dropped by the
fetch sub-step; their execute arms are empty. R241 says that a NOP never reaches a later stage and is never counted: what
the clauses on NOP beyond its fetch (`readsNone .nop`, its execute part's move to M, `passesMemory .nop`,
`writesNothingBack .nop`) say, in states no run reaches, is the model's choice (log 17). -/
def Obligations.HaltAndNopFollowTheirRules : Prop :=
  (∀ s : State, s.seq.stage = .fetch →
    exec .halt s = .next
      { s with pc := wrap32 (s32 s.pc + s.cfg.stride), d := s.f, f := { s.f with valid := false } } ∧
    exec .nop s = .next
      { s with pc := wrap32 (s32 s.pc + s.cfg.stride), d := { s.f with valid := false } }) ∧
  (∀ s : State, s.seq.stage = .execute →
    exec .halt s = .next { s with m := s.e, e := { s.e with valid := false } } ∧
    exec .nop s = .next { s with m := s.e, e := { s.e with valid := false } }) ∧
  (∀ s : State, s.seq.stage = .writeback →
    exec .halt s = .next
      { s with
        completed := s.completed + 1
        wb := { s.wb with valid := false }
        seq := { s.seq with haltSeen := true } }) ∧
  readsNone .halt ∧ passesMemory .halt ∧ readsNone .nop ∧ passesMemory .nop ∧ writesNothingBack .nop

/-! ### Memory, code memory, forwarding and hazards as operations -/

/-- R64, R65: a data access reads or writes exactly the addressed word, or is the fault and changes nothing. The canonical
form of data memory is the model's (log 8). -/
def Obligations.DataAccessRules : Prop :=
  ∀ (s : State) (a v : Word), s.dm.wf = true →
    (0 ≤ s32 a → s32 a < s.cfg.dataWords →
      memRead s a = .ok (s.dm.read (s32 a).toNat) ∧
      ∃ t : State, memWrite s a v = .ok t ∧ t = { s with dm := t.dm } ∧ t.dm.wf = true ∧
        ∀ b : Nat, t.dm.read b = if b = (s32 a).toNat then v else s.dm.read b) ∧
    (s32 a < 0 ∨ s.cfg.dataWords ≤ s32 a →
      memRead s a = .error (.dataOutOfRange s.m.pc s.m.op a) ∧
      memWrite s a v = .error (.dataOutOfRange s.m.pc s.m.op a))

/-- R63, R72: two memories in canonical form that read the same everywhere are the same data (the form is the
model's). -/
def Obligations.EqualReadsAreEqualMemories : Prop :=
  ∀ m m' : Memory, m.wf = true → m'.wf = true → (∀ a, m.read a = m'.read a) → m = m'

/-- R61: CodeRead is defined exactly at CODE_BASE + k*W for the records k, and a fetch anywhere else is the fault. -/
def Obligations.CodeReadRule : Prop :=
  ∀ (s : State) (p : Word), 1 ≤ s.cfg.stride →
    (∀ r : Record, codeRead s p = some r ↔
      ∃ k : Nat, s.code[k]? = some r ∧ s32 p = s.cfg.codeBase + k * s.cfg.stride) ∧
    (codeRead s s.pc = none → fetchRead s = .fault (.fetchOutOfRange s.pc))

/-- R118: M before WB before the register file; a LOAD in M is no source. -/
def Obligations.ForwardingMuxRule : Prop :=
  ∀ (s : State) (r : Reg),
    let writers := [Op.add, .sub, .and, .or, .xor, .addl, .subl, .movc, .load, .jal]
    let fromM := s.m.valid = true ∧ s.m.op ∈ writers ∧ s.m.op ≠ .load ∧ s.m.rd = r
    let fromWb := s.wb.valid = true ∧ s.wb.op ∈ writers ∧ s.wb.rd = r
    (fromM → fwd s r = some s.m.resultBuffer) ∧
    (¬fromM → fromWb → fwd s r = some s.wb.resultBuffer) ∧
    (¬fromM → ¬fromWb → fwd s r = s.regs[r.toNat]?)

/-- R136: the hazard check stalls F and D exactly when E holds a register writer with a nonzero destination that D
reads, and clears both stalls otherwise. -/
def Obligations.HazardCheckRule : Prop :=
  ∀ s : State,
    let writers := [Op.add, .sub, .and, .or, .xor, .addl, .subl, .movc, .load, .jal]
    let both := [Op.add, .sub, .and, .or, .xor, .cmp, .store]
    let first := [Op.addl, .subl, .load, .jump, .jal]
    let hazard := s.e.valid = true ∧ s.d.valid = true ∧ s.e.op ∈ writers ∧ s.e.rd ≠ 0 ∧
      ((s.d.op ∈ both ∧ (s.d.rs1 = s.e.rd ∨ s.d.rs2 = s.e.rd)) ∨ (s.d.op ∈ first ∧ s.d.rs1 = s.e.rd))
    (hazard → hazardCheck s = { s with f := { s.f with stall := true }, d := { s.d with stall := true } }) ∧
    (¬hazard → hazardCheck s = { s with f := { s.f with stall := false }, d := { s.d with stall := false } })

/-- R106, R107, R108: the fetch sub-step of a stalled, a disabled and a delayed fetch. -/
def Obligations.FetchWaitsWhenStalledDisabledOrDelayed : Prop :=
  ∀ s : State,
    (s.f.stall = true → fetchStep s = .next (hazardCheck s)) ∧
    (s.f.stall = false → s.f.valid = false → fetchStep s = .next s) ∧
    (s.f.stall = false → s.f.valid = true → s.redirectPending = true →
      fetchStep s = .next { s with redirectPending := false })

/-- R142, R143: lookup finds the first entry with the tag, none where no entry has it (an EMPTY tag is no pc value), and
the prediction table. -/
def Obligations.BtbLookupAndPredictionTable : Prop :=
  (∀ (btb : List BtbEntry) (a : Word), (∀ x ∈ btb, x.tag ≠ some a) → btbLookup btb a = none) ∧
  (∀ (before after : List BtbEntry) (x : BtbEntry) (a : Word), (∀ y ∈ before, y.tag ≠ some a) → x.tag = some a →
    btbLookup (before ++ x :: after) a = some before.length) ∧
  (∀ h : BitVec 2,
    (btbPredict h .bnz = true ↔ h.getLsbD 1 = true ∨ h.getLsbD 0 = true) ∧
    (btbPredict h .bp = true ↔ h.getLsbD 1 = true ∨ h.getLsbD 0 = true) ∧
    (btbPredict h .bz = true ↔ h = 0) ∧ (btbPredict h .bnp = true ↔ h = 0) ∧
    btbPredict h .bn = false ∧ btbPredict h .bnn = false)

/-- R109: on a branch at pc that hits entry `i`, the prediction step steers pc to the stored target or by W; on a miss, on
another instruction and where no record lies at pc, it does nothing. -/
def Obligations.BtbPredictionStepRule : Prop :=
  ∀ s : State,
    (codeRead s s.pc = none → btbPredictStep s = .next s) ∧
    (∀ r : Record, codeRead s s.pc = some r →
      (r.op ∉ [Op.bz, .bnz, .bp, .bnp, .bn, .bnn] ∨ btbLookup s.btb s.pc = none → btbPredictStep s = .next s) ∧
      (∀ (i : Nat) (x : BtbEntry), r.op ∈ [Op.bz, .bnz, .bp, .bnp, .bn, .bnn] → btbLookup s.btb s.pc = some i →
        s.btb[i]? = some x →
        (∀ t : Word, btbPredict x.history r.op = true → x.target = some t →
          btbPredictStep s = .next { s with pc := t }) ∧
        (btbPredict x.history r.op = false →
          btbPredictStep s = .next { s with pc := wrap32 (s32 s.pc + s.cfg.stride) })))

/-! ### What a cycle changes, over all states -/

/-- R62, R144 and log 1: no step changes code memory, the BTB or the parameters. -/
def Obligations.CodeAndBtbNeverChange : Prop :=
  ∀ s t : State, step s = .next t → t.code = s.code ∧ t.btb = s.btb ∧ t.cfg = s.cfg

/-- R28, R101, R252: a cycle that ends without a fault is counted, a faulting cycle is not. -/
def Obligations.ClockCountsCompletedCycles : Prop :=
  ∀ s t : State, s.status = .running → step s = .next t →
    (faulted t = none → t.clock = s.clock + 1) ∧ (faulted t ≠ none → t.clock = s.clock)

/-- R22, R131 to R133: a cycle writes a register only for the register writer in WB, and counts exactly the instruction in
WB. -/
def Obligations.OnlyWritebackWritesRegisters : Prop :=
  ∀ s t : State, s.status = .running → step s = .next t →
    (s.wb.valid = true → s.wb.stall = false →
      t.completed = s.completed + 1 ∧
      t.regs = if isWriter s.wb.op then s.regs.set s.wb.rd.toNat s.wb.resultBuffer else s.regs) ∧
    (s.wb.valid = false ∨ s.wb.stall = true → t.completed = s.completed ∧ t.regs = s.regs)

/-- R38, R65, R128, R129: a cycle writes data memory only for the STORE in M, and only the addressed word. -/
def Obligations.OnlyAStoreInMWritesMemory : Prop :=
  ∀ s t : State, s.status = .running → s.dm.wf = true → step s = .next t →
    let storing := s.m.valid = true ∧ s.m.stall = false ∧ s.m.op = .store ∧
      0 ≤ s32 s.m.memoryAddress ∧ s32 s.m.memoryAddress < s.cfg.dataWords
    (storing → t.dm.read (s32 s.m.memoryAddress).toNat = s.m.resultBuffer ∧
      ∀ a : Nat, a ≠ (s32 s.m.memoryAddress).toNat → t.dm.read a = s.dm.read a) ∧
    (¬storing → t.dm = s.dm)

/-- R26, R27: a cycle changes a flag only for the instruction in E: Z for ADD, SUB, ADDL, SUBL, and all three for CMP. -/
def Obligations.OnlyExecuteWritesFlags : Prop :=
  ∀ s t : State, s.status = .running → step s = .next t →
    (¬(s.e.valid = true ∧ s.e.stall = false ∧ s.e.op ∈ [Op.add, .sub, .addl, .subl, .cmp]) → t.z = s.z) ∧
    (¬(s.e.valid = true ∧ s.e.stall = false ∧ s.e.op = .cmp) → t.n = s.n ∧ t.p = s.p)

/-- R25, R109, R111, R124, R145: in a block the fetch pointer moves only by the W of a fetch or to the target of the
transfer in E; the BTB never steers it. -/
def Obligations.FetchPointerMovesOnlyByFetchOrTransfer : Prop :=
  ∀ s t : State, s.Inv → cleanCycle s t →
    btbPredictStep s = .next s ∧
    (eTransfers s = true → t.pc = transferTarget s.e.instr s.e.pc s.e.rs1Value) ∧
    (eTransfers s = false → s.f.valid = true → s.f.stall = false → s.redirectPending = false →
      t.pc = wrap32 (s32 s.pc + s.cfg.stride)) ∧
    (eTransfers s = false → s.f.valid = false ∨ s.f.stall = true ∨ s.redirectPending = true → t.pc = s.pc)

/-! ### Stalls, redirects, halt and faults in a block -/

/-- R149: a stall lasts exactly one cycle, in which nothing is fetched or decoded, and D keeps its instruction unless E
flushes it. -/
def Obligations.StallLastsOneCycle : Prop :=
  ∀ s t : State, s.Inv → cleanCycle s t → s.f.stall = true →
    t.f.stall = false ∧ t.d.stall = false ∧ t.e.valid = false ∧ t.m.valid = true ∧
    (eTransfers s = false → t.d = { s.d with stall := false } ∧ t.f = { s.f with stall := false } ∧ t.pc = s.pc) ∧
    (eTransfers s = true → t.d.valid = false)

/-- R108, R124, R150, R295, R296: a taken transfer redirects pc, enables fetch, empties D and moves on to M; in the next
cycle its target is fetched or, where the transfer's own cycle was stalled, that cycle is the refetch delay and only clears
the pending redirect. -/
def Obligations.TakenTransferFlushesAndRefetches : Prop :=
  ∀ s t : State, s.Inv → cleanCycle s t → eTransfers s = true →
    t.pc = transferTarget s.e.instr s.e.pc s.e.rs1Value ∧ t.f.valid = true ∧ t.d.valid = false ∧ t.e.valid = false ∧
    t.m.valid = true ∧ t.m.op = s.e.op ∧ t.m.pc = s.e.pc ∧ t.redirectPending = s.f.stall ∧
    (s.f.stall = false → ∀ u : State, cleanCycle t u →
      ∃ r : Record, codeRead t t.pc = some r ∧ u.f.pc = t.pc ∧ u.f.op = r.op ∧
        u.pc = wrap32 (s32 t.pc + t.cfg.stride)) ∧
    (s.f.stall = true → ∀ u : State, cleanCycle t u →
      u.pc = t.pc ∧ u.redirectPending = false ∧ u.d.valid = false ∧ u.f.valid = true)

/-- R101, R135, R151: the cycle in which a HALT retires changes nothing but the counters, WB and the status. -/
def Obligations.RetiringHaltEndsTheRun : Prop :=
  ∀ s : State, s.Inv → s.status = .running → s.code ≠ [] → s.wb.valid = true → s.wb.op = .halt →
    step s = .next
      { s with
        clock := s.clock + 1
        completed := s.completed + 1
        wb := { s.wb with valid := false }
        status := .halted }

/-- R250, R253, R254: a data fault is precise and comes before any fetch: the older instruction in WB has retired, nothing
younger has run, and the record names the access. -/
def Obligations.DataFaultIsPrecise : Prop :=
  ∀ s : State, s.Inv → s.status = .running → s.code ≠ [] → dataFaultInM s →
    ∃ t : State, step s = .next t ∧
      t.status = .faulted
        { kind := .dataOutOfRange, code := 2, pc := s.m.pc, op := some s.m.op, addr := some s.m.memoryAddress,
          clock := s.clock } ∧
      t.regs = (completeWb s.wb (visible s)).regs ∧
      t.completed = s.completed + (if s.wb.valid then 1 else 0) ∧
      t.wb.valid = false ∧ t.m = s.m ∧ t.e = s.e ∧ t.d = s.d ∧ t.f = s.f ∧ t.pc = s.pc ∧
      t.z = s.z ∧ t.n = s.n ∧ t.p = s.p ∧ t.dm = s.dm ∧ t.clock = s.clock

/-- R110, R250, R253: a fetch at a pc that names no record faults with the pc as it was, the instructions older than the
fetch each one stage further and unretired. -/
def Obligations.FetchOutOfRangeFaults : Prop :=
  ∀ s : State, s.Inv → s.status = .running → s.code ≠ [] → ¬dataFaultInM s → eTransfers s = false →
    s.f.valid = true → s.f.stall = false → s.redirectPending = false → codeRead s s.pc = none →
    ∃ t : State, step s = .next t ∧
      t.status = .faulted
        { kind := .fetchOutOfRange, code := 1, pc := s.pc, op := none, addr := none, clock := s.clock } ∧
      t.pc = s.pc ∧ t.f = s.f ∧ t.clock = s.clock ∧ t.d.valid = false ∧
      t.e.valid = s.d.valid ∧ t.m.valid = s.e.valid ∧ t.wb.valid = s.m.valid ∧
      t.e.pc = (if s.d.valid then s.d.pc else s.e.pc) ∧ t.m.pc = (if s.e.valid then s.e.pc else s.m.pc) ∧
      t.wb.pc = (if s.m.valid then s.m.pc else s.wb.pc)

/-! ### Operands and the R0 hazard -/

/-- R152, R285: an instruction decoded in this cycle reads, for each source register, the value that the older
instructions leave in it in program order, except for the hazard of R286. -/
def Obligations.DecodedOperandsAreProgramOrderValues : Prop :=
  ∀ (s t : State) (a b : Arch), s.Inv → cleanCycle s t → s.d.valid = true → s.f.stall = false →
    eTransfers s = false → loadUseR0 s = false → afterM s = some a → completeE s.cfg s.e a = some b →
    t.e.valid = true ∧ t.e.op = s.d.op ∧ t.e.pc = s.d.pc ∧
    (readsRs1 s.d.op = true → t.e.rs1Value = b.reg s.d.rs1) ∧
    (readsRs2 s.d.op = true → t.e.rs2Value = b.reg s.d.rs2)

/-- R286: a reader of R0 directly behind a LOAD into R0 gets, without a stall, the value R0 has in program order just
before the LOAD. -/
def Obligations.LoadIntoR0GivesTheOldValue : Prop :=
  ∀ (s t : State) (a : Arch), s.Inv → cleanCycle s t → loadUseR0 s = true → afterM s = some a →
    s.f.stall = false ∧ t.e.valid = true ∧ t.e.op = s.d.op ∧
    (readsRs1 s.d.op = true → s.d.rs1 = 0 → t.e.rs1Value = a.reg 0) ∧
    (readsRs2 s.d.op = true → s.d.rs2 = 0 → t.e.rs2Value = a.reg 0)

/-! ### Headlines -/

/-- R222, R152, R153, R72: the pipeline is one-instruction-at-a-time execution. Completing the instructions in flight
after a cycle gives what one sequential instruction gives after completing them before it, if the cycle fetched an
instruction of the program's path, and what it gave before otherwise; only the cycle of the R0 hazard (R286) is left
out. -/
def Obligations.PipelineRefinesSequentialExecution : Prop :=
  ∀ s t : State, s.Inv → cleanCycle s t → loadUseR0 s = false →
    (fetchesOnPath s t = true → settled t = (settled s).bind (sequentialStep s.cfg s.code)) ∧
    (fetchesOnPath s t = false → settled t = settled s)

/-- R85: don't-care fields never matter: two states that differ only in them step to states that differ only in them, with
the same outcome. -/
def Obligations.DontCareFieldsNeverMatter : Prop :=
  ∀ s s' : State, s.normal = s'.normal → normalOutcome (step s) = normalOutcome (step s')

/-- R293 with the rules of the instructions, and R101, R113, R135, R240: an instruction alone in E, with the HALT behind it
in D (so fetch is disabled), that takes no transfer and makes no data fault, retires in the third cycle from there with its
whole software-visible effect; the HALT retires in the fourth, changes none of it and ends the run. -/
def Obligations.LoneInstructionRetiresWithItsEffect : Prop :=
  ∀ (s : State) (a : Arch), s.Inv → s.status = .running → s.code ≠ [] → s.d.valid = true → s.d.op = .halt →
    s.e.valid = true → s.m.valid = false → s.wb.valid = false → transfers s.e.instr s.z s.n s.p = false →
    effect s.cfg s.e.pc s.e.instr s.e.rs1Value s.e.rs2Value (visible s) = some a →
    ∃ t u : State,
      Host.Core.run Sys2Proof.core 3 s = .next t ∧ visible t = a ∧ t.clock = s.clock + 3 ∧
        t.completed = s.completed + 1 ∧ t.status = .running ∧ t.f.valid = false ∧ t.d.valid = false ∧
        t.e.valid = false ∧ t.m.valid = false ∧ t.wb.valid = true ∧ t.wb.op = .halt ∧ t.wb.pc = s.d.pc ∧
      step t = .next u ∧ visible u = a ∧ u.clock = s.clock + 4 ∧ u.completed = s.completed + 2 ∧
        u.status = .halted ∧ u.wb.valid = false

/-! ### The host's side -/

/-- R264, R265: quit makes a running block Stopped and changes nothing else, and the report gives the counters. -/
def Obligations.QuitStopsAndReportCounts : Prop :=
  (∀ s : State, s.status = .running → report s = none ∧ quit s = { s with status := .stopped } ∧
    report (quit s) = some { clock := s.clock, completed := s.completed, fault := none }) ∧
  (∀ s : State, s.status = .halted → report s = some { clock := s.clock, completed := s.completed, fault := none }) ∧
  (∀ (s : State) (x : FaultRecord), s.status = .faulted x →
    report s = some { clock := s.clock, completed := s.completed, fault := some x })

/-- R263: the single-step setting changes only the pacing: with every decision "go" the state after k cycles is the same
in both modes, without it the decisions are not read, and a "quit" is `quit` of the state the cycle gave. That
the decisions come as a list is the model's form (log 18). -/
def Obligations.SingleStepOnlyPaces : Prop :=
  ∀ s : State,
    (∀ k : Nat, drive true (List.replicate k false) s = drive false (List.replicate k false) s) ∧
    (∀ qs : List Bool, drive false qs s = Host.Core.run Sys2Proof.core qs.length s) ∧
    (∀ (k : Nat) (t : State), drive true (List.replicate (k + 1) false) s = .next t →
      drive true (List.replicate k false ++ [true]) s = .next (quit t))

/-- R262, R44, R46, under the ruling that the trace is a view of every state item: two states of one program and one set of
parameters, both between cycles, with the same trace are the same state. That the ruling, which R40 contradicts for
`redirect_pending`, is an argument is the model's choice (log 19). -/
def Obligations.TraceShowsEveryStateItem : Prop :=
  ∀ s t : State, s.cfg = t.cfg → s.code = t.code → s.seq = Sequencer.rest → t.seq = Sequencer.rest →
    trace .everyItem s = trace .everyItem t → s = t

/-- R40, R45: what the table's column "host access" opens to the host, and the trace port; neither shows
`redirect_pending`, nor does the trace under the ruling of R40, which is else the trace of every item. That R40 and R44
each have a view, and the ruling is an argument, is the model's choice (log 19). -/
def Obligations.HostAccessTableHidesRedirectPending : Prop :=
  ∀ (s : State) (b : Bool),
    hostView s =
      { pc := s.pc, z := s.z, n := s.n, p := s.p, clock := s.clock, completed := s.completed, fetchEnable := s.f.valid,
        fStall := s.f.stall, dStall := s.d.stall, status := s.status } ∧
    tracePort s = { f := s.f, d := s.d, e := s.e, m := s.m, wb := s.wb, regs := s.regs } ∧
    hostView { s with redirectPending := b } = hostView s ∧ tracePort { s with redirectPending := b } = tracePort s ∧
    trace .accessTable s = { trace .everyItem s with redirectPending := none } ∧
    trace .accessTable { s with redirectPending := b } = trace .accessTable s

/-- R150, R296: a taken transfer leaves the older instruction in M, which moves on to WB; and where the transfer's own cycle
was stalled, the target is fetched in the second cycle after it, the first being the refetch delay. -/
def Obligations.TransferSparesOlderAndStalledOneRefetchesLater : Prop :=
  ∀ s t : State, s.Inv → cleanCycle s t → eTransfers s = true →
    t.wb.valid = s.m.valid ∧ (s.m.valid = true → t.wb.op = s.m.op ∧ t.wb.pc = s.m.pc) ∧
    (s.f.stall = true → ∀ u v : State, cleanCycle t u → cleanCycle u v →
      ∃ r : Record, codeRead u t.pc = some r ∧ v.f.pc = t.pc ∧ v.f.op = r.op ∧
        v.pc = wrap32 (s32 t.pc + t.cfg.stride))
end

