-- ==== Sys2Proof/Laws/Encode.lean ====
section
/-!
SUPPORT. The fields of a canonical word by arithmetic on its value (30_encoding.md R81): the word of a record, and what each
field function reads.
-/

namespace Sys2Proof

/-- The word of an append, when the high part is shifted over the low part. -/
theorem toNat_append_add {m n : Nat} (x : BitVec m) (y : BitVec n) : (x ++ y).toNat = x.toNat * 2 ^ n + y.toNat := by
  rw [BitVec.toNat_append, ← Nat.shiftLeft_add_eq_or_of_lt y.isLt, Nat.shiftLeft_eq]

/-- The value of a record's word: each field at its place, the reserved byte 0 (R81). -/
theorem word_toNat (r : Record) : r.word.toNat =
    r.op.opc.toNat * 2 ^ 58 + r.rd.toNat * 2 ^ 52 + r.rs1.toNat * 2 ^ 46 + r.rs2.toNat * 2 ^ 40 + r.imm.toNat := by
  show (r.op.opc ++ r.rd ++ r.rs1 ++ r.rs2 ++ (0 : BitVec 8) ++ r.imm).toNat = _
  simp only [toNat_append_add]
  have : (0 : BitVec 8).toNat = 0 := rfl
  omega

theorem opcField_toNat (w : CodeWord) : (opcField w).toNat = w.toNat / 2 ^ 58 := by
  have := w.isLt
  simp only [opcField, BitVec.extractLsb'_toNat, Nat.shiftRight_eq_div_pow]
  omega

theorem rdField_toNat (w : CodeWord) : (rdField w).toNat = w.toNat / 2 ^ 52 % 2 ^ 6 := by
  simp only [rdField, BitVec.extractLsb'_toNat, Nat.shiftRight_eq_div_pow]

theorem rs1Field_toNat (w : CodeWord) : (rs1Field w).toNat = w.toNat / 2 ^ 46 % 2 ^ 6 := by
  simp only [rs1Field, BitVec.extractLsb'_toNat, Nat.shiftRight_eq_div_pow]

theorem rs2Field_toNat (w : CodeWord) : (rs2Field w).toNat = w.toNat / 2 ^ 40 % 2 ^ 6 := by
  simp only [rs2Field, BitVec.extractLsb'_toNat, Nat.shiftRight_eq_div_pow]

theorem rsvField_toNat (w : CodeWord) : (rsvField w).toNat = w.toNat / 2 ^ 32 % 2 ^ 8 := by
  simp only [rsvField, BitVec.extractLsb'_toNat, Nat.shiftRight_eq_div_pow]

theorem immField_toNat (w : CodeWord) : (immField w).toNat = w.toNat % 2 ^ 32 := by
  simp only [immField, BitVec.extractLsb'_toNat, Nat.shiftRight_zero]

/-- The opcode number of a mnemonic is below 21. -/
theorem opc_lt (op : Op) : op.opc.toNat < 21 := by cases op <;> decide

/-- The opcode table reads each mnemonic back from its opcode number (R82). -/
theorem mnemonicOf_opc (op : Op) : mnemonicOf op.opc = some op := by cases op <;> rfl

/-- A mnemonic's opcode number is the one the opcode table found it under (R82). -/
theorem opc_of_mnemonicOf {n : BitVec 6} {op : Op} (h : mnemonicOf n = some op) : op.opc = n := by
  revert n
  cases op <;> decide

/-- The record of an instruction stands for the instruction. -/
theorem record_instr (i : Instr) : i.record.instr = i := by cases i <;> rfl

/-- Setting the don't-care fields to 0 changes neither the instruction nor the mnemonic. -/
theorem normal_instr (r : Record) : r.normal.instr = r.instr := record_instr _

end Sys2Proof
end

