-- ==== Sys2Proof/Laws/State.lean ====
section
/-!
SUPPORT. One lemma per field of State for each named update of Machine/Ops.lean and for the hazard check, so that no
later proof unfolds a record update. All hold by rfl.
-/

namespace Sys2Proof.Machine

/-! The read into F (R110) -/

@[simp] theorem latchFetched_cfg (r : Record) (s : State) : (latchFetched r s).cfg = s.cfg := rfl
@[simp] theorem latchFetched_code (r : Record) (s : State) : (latchFetched r s).code = s.code := rfl
@[simp] theorem latchFetched_regs (r : Record) (s : State) : (latchFetched r s).regs = s.regs := rfl
@[simp] theorem latchFetched_pc (r : Record) (s : State) : (latchFetched r s).pc = s.pc := rfl
@[simp] theorem latchFetched_z (r : Record) (s : State) : (latchFetched r s).z = s.z := rfl
@[simp] theorem latchFetched_n (r : Record) (s : State) : (latchFetched r s).n = s.n := rfl
@[simp] theorem latchFetched_p (r : Record) (s : State) : (latchFetched r s).p = s.p := rfl
@[simp] theorem latchFetched_clock (r : Record) (s : State) : (latchFetched r s).clock = s.clock := rfl
@[simp] theorem latchFetched_completed (r : Record) (s : State) : (latchFetched r s).completed = s.completed := rfl
@[simp] theorem latchFetched_f (r : Record) (s : State) : (latchFetched r s).f = { s.f with pc := s.pc, op := r.op, rd := r.rd, rs1 := r.rs1, rs2 := r.rs2, imm := r.imm } := rfl
@[simp] theorem latchFetched_d (r : Record) (s : State) : (latchFetched r s).d = s.d := rfl
@[simp] theorem latchFetched_e (r : Record) (s : State) : (latchFetched r s).e = s.e := rfl
@[simp] theorem latchFetched_m (r : Record) (s : State) : (latchFetched r s).m = s.m := rfl
@[simp] theorem latchFetched_wb (r : Record) (s : State) : (latchFetched r s).wb = s.wb := rfl
@[simp] theorem latchFetched_redirectPending (r : Record) (s : State) : (latchFetched r s).redirectPending = s.redirectPending := rfl
@[simp] theorem latchFetched_btb (r : Record) (s : State) : (latchFetched r s).btb = s.btb := rfl
@[simp] theorem latchFetched_dm (r : Record) (s : State) : (latchFetched r s).dm = s.dm := rfl
@[simp] theorem latchFetched_status (r : Record) (s : State) : (latchFetched r s).status = s.status := rfl
@[simp] theorem latchFetched_seq (r : Record) (s : State) : (latchFetched r s).seq = s.seq := rfl

/-! The hand-off from F to D (R111, R112) -/

@[simp] theorem fetchHandOff_cfg (s : State) : (fetchHandOff s).cfg = s.cfg := rfl
@[simp] theorem fetchHandOff_code (s : State) : (fetchHandOff s).code = s.code := rfl
@[simp] theorem fetchHandOff_regs (s : State) : (fetchHandOff s).regs = s.regs := rfl
@[simp] theorem fetchHandOff_pc (s : State) : (fetchHandOff s).pc = nextPc s.cfg s.pc := rfl
@[simp] theorem fetchHandOff_z (s : State) : (fetchHandOff s).z = s.z := rfl
@[simp] theorem fetchHandOff_n (s : State) : (fetchHandOff s).n = s.n := rfl
@[simp] theorem fetchHandOff_p (s : State) : (fetchHandOff s).p = s.p := rfl
@[simp] theorem fetchHandOff_clock (s : State) : (fetchHandOff s).clock = s.clock := rfl
@[simp] theorem fetchHandOff_completed (s : State) : (fetchHandOff s).completed = s.completed := rfl
@[simp] theorem fetchHandOff_f (s : State) : (fetchHandOff s).f = s.f := rfl
@[simp] theorem fetchHandOff_d (s : State) : (fetchHandOff s).d = s.f := rfl
@[simp] theorem fetchHandOff_e (s : State) : (fetchHandOff s).e = s.e := rfl
@[simp] theorem fetchHandOff_m (s : State) : (fetchHandOff s).m = s.m := rfl
@[simp] theorem fetchHandOff_wb (s : State) : (fetchHandOff s).wb = s.wb := rfl
@[simp] theorem fetchHandOff_redirectPending (s : State) : (fetchHandOff s).redirectPending = s.redirectPending := rfl
@[simp] theorem fetchHandOff_btb (s : State) : (fetchHandOff s).btb = s.btb := rfl
@[simp] theorem fetchHandOff_dm (s : State) : (fetchHandOff s).dm = s.dm := rfl
@[simp] theorem fetchHandOff_status (s : State) : (fetchHandOff s).status = s.status := rfl
@[simp] theorem fetchHandOff_seq (s : State) : (fetchHandOff s).seq = s.seq := rfl

/-! The hand-off from D to E (R117) -/

@[simp] theorem decodeHandOff_cfg (s : State) : (decodeHandOff s).cfg = s.cfg := rfl
@[simp] theorem decodeHandOff_code (s : State) : (decodeHandOff s).code = s.code := rfl
@[simp] theorem decodeHandOff_regs (s : State) : (decodeHandOff s).regs = s.regs := rfl
@[simp] theorem decodeHandOff_pc (s : State) : (decodeHandOff s).pc = s.pc := rfl
@[simp] theorem decodeHandOff_z (s : State) : (decodeHandOff s).z = s.z := rfl
@[simp] theorem decodeHandOff_n (s : State) : (decodeHandOff s).n = s.n := rfl
@[simp] theorem decodeHandOff_p (s : State) : (decodeHandOff s).p = s.p := rfl
@[simp] theorem decodeHandOff_clock (s : State) : (decodeHandOff s).clock = s.clock := rfl
@[simp] theorem decodeHandOff_completed (s : State) : (decodeHandOff s).completed = s.completed := rfl
@[simp] theorem decodeHandOff_f (s : State) : (decodeHandOff s).f = s.f := rfl
@[simp] theorem decodeHandOff_d (s : State) : (decodeHandOff s).d = { s.d with valid := false } := rfl
@[simp] theorem decodeHandOff_e (s : State) : (decodeHandOff s).e = s.d := rfl
@[simp] theorem decodeHandOff_m (s : State) : (decodeHandOff s).m = s.m := rfl
@[simp] theorem decodeHandOff_wb (s : State) : (decodeHandOff s).wb = s.wb := rfl
@[simp] theorem decodeHandOff_redirectPending (s : State) : (decodeHandOff s).redirectPending = s.redirectPending := rfl
@[simp] theorem decodeHandOff_btb (s : State) : (decodeHandOff s).btb = s.btb := rfl
@[simp] theorem decodeHandOff_dm (s : State) : (decodeHandOff s).dm = s.dm := rfl
@[simp] theorem decodeHandOff_status (s : State) : (decodeHandOff s).status = s.status := rfl
@[simp] theorem decodeHandOff_seq (s : State) : (decodeHandOff s).seq = s.seq := rfl

/-! The hand-off from E to M (R125) -/

@[simp] theorem executeHandOff_cfg (s : State) : (executeHandOff s).cfg = s.cfg := rfl
@[simp] theorem executeHandOff_code (s : State) : (executeHandOff s).code = s.code := rfl
@[simp] theorem executeHandOff_regs (s : State) : (executeHandOff s).regs = s.regs := rfl
@[simp] theorem executeHandOff_pc (s : State) : (executeHandOff s).pc = s.pc := rfl
@[simp] theorem executeHandOff_z (s : State) : (executeHandOff s).z = s.z := rfl
@[simp] theorem executeHandOff_n (s : State) : (executeHandOff s).n = s.n := rfl
@[simp] theorem executeHandOff_p (s : State) : (executeHandOff s).p = s.p := rfl
@[simp] theorem executeHandOff_clock (s : State) : (executeHandOff s).clock = s.clock := rfl
@[simp] theorem executeHandOff_completed (s : State) : (executeHandOff s).completed = s.completed := rfl
@[simp] theorem executeHandOff_f (s : State) : (executeHandOff s).f = s.f := rfl
@[simp] theorem executeHandOff_d (s : State) : (executeHandOff s).d = s.d := rfl
@[simp] theorem executeHandOff_e (s : State) : (executeHandOff s).e = { s.e with valid := false } := rfl
@[simp] theorem executeHandOff_m (s : State) : (executeHandOff s).m = s.e := rfl
@[simp] theorem executeHandOff_wb (s : State) : (executeHandOff s).wb = s.wb := rfl
@[simp] theorem executeHandOff_redirectPending (s : State) : (executeHandOff s).redirectPending = s.redirectPending := rfl
@[simp] theorem executeHandOff_btb (s : State) : (executeHandOff s).btb = s.btb := rfl
@[simp] theorem executeHandOff_dm (s : State) : (executeHandOff s).dm = s.dm := rfl
@[simp] theorem executeHandOff_status (s : State) : (executeHandOff s).status = s.status := rfl
@[simp] theorem executeHandOff_seq (s : State) : (executeHandOff s).seq = s.seq := rfl

/-! The hand-off from M to WB (R130) -/

@[simp] theorem memoryHandOff_cfg (s : State) : (memoryHandOff s).cfg = s.cfg := rfl
@[simp] theorem memoryHandOff_code (s : State) : (memoryHandOff s).code = s.code := rfl
@[simp] theorem memoryHandOff_regs (s : State) : (memoryHandOff s).regs = s.regs := rfl
@[simp] theorem memoryHandOff_pc (s : State) : (memoryHandOff s).pc = s.pc := rfl
@[simp] theorem memoryHandOff_z (s : State) : (memoryHandOff s).z = s.z := rfl
@[simp] theorem memoryHandOff_n (s : State) : (memoryHandOff s).n = s.n := rfl
@[simp] theorem memoryHandOff_p (s : State) : (memoryHandOff s).p = s.p := rfl
@[simp] theorem memoryHandOff_clock (s : State) : (memoryHandOff s).clock = s.clock := rfl
@[simp] theorem memoryHandOff_completed (s : State) : (memoryHandOff s).completed = s.completed := rfl
@[simp] theorem memoryHandOff_f (s : State) : (memoryHandOff s).f = s.f := rfl
@[simp] theorem memoryHandOff_d (s : State) : (memoryHandOff s).d = s.d := rfl
@[simp] theorem memoryHandOff_e (s : State) : (memoryHandOff s).e = s.e := rfl
@[simp] theorem memoryHandOff_m (s : State) : (memoryHandOff s).m = { s.m with valid := false } := rfl
@[simp] theorem memoryHandOff_wb (s : State) : (memoryHandOff s).wb = s.m := rfl
@[simp] theorem memoryHandOff_redirectPending (s : State) : (memoryHandOff s).redirectPending = s.redirectPending := rfl
@[simp] theorem memoryHandOff_btb (s : State) : (memoryHandOff s).btb = s.btb := rfl
@[simp] theorem memoryHandOff_dm (s : State) : (memoryHandOff s).dm = s.dm := rfl
@[simp] theorem memoryHandOff_status (s : State) : (memoryHandOff s).status = s.status := rfl
@[simp] theorem memoryHandOff_seq (s : State) : (memoryHandOff s).seq = s.seq := rfl

/-! The retirement (R133, R134) -/

@[simp] theorem retire_cfg (s : State) : (retire s).cfg = s.cfg := rfl
@[simp] theorem retire_code (s : State) : (retire s).code = s.code := rfl
@[simp] theorem retire_regs (s : State) : (retire s).regs = s.regs := rfl
@[simp] theorem retire_pc (s : State) : (retire s).pc = s.pc := rfl
@[simp] theorem retire_z (s : State) : (retire s).z = s.z := rfl
@[simp] theorem retire_n (s : State) : (retire s).n = s.n := rfl
@[simp] theorem retire_p (s : State) : (retire s).p = s.p := rfl
@[simp] theorem retire_clock (s : State) : (retire s).clock = s.clock := rfl
@[simp] theorem retire_completed (s : State) : (retire s).completed = s.completed + 1 := rfl
@[simp] theorem retire_f (s : State) : (retire s).f = s.f := rfl
@[simp] theorem retire_d (s : State) : (retire s).d = s.d := rfl
@[simp] theorem retire_e (s : State) : (retire s).e = s.e := rfl
@[simp] theorem retire_m (s : State) : (retire s).m = s.m := rfl
@[simp] theorem retire_wb (s : State) : (retire s).wb = { s.wb with valid := false } := rfl
@[simp] theorem retire_redirectPending (s : State) : (retire s).redirectPending = s.redirectPending := rfl
@[simp] theorem retire_btb (s : State) : (retire s).btb = s.btb := rfl
@[simp] theorem retire_dm (s : State) : (retire s).dm = s.dm := rfl
@[simp] theorem retire_status (s : State) : (retire s).status = s.status := rfl
@[simp] theorem retire_seq (s : State) : (retire s).seq = s.seq := rfl

/-! The halt output (R135) -/

@[simp] theorem signalHalt_cfg (s : State) : (signalHalt s).cfg = s.cfg := rfl
@[simp] theorem signalHalt_code (s : State) : (signalHalt s).code = s.code := rfl
@[simp] theorem signalHalt_regs (s : State) : (signalHalt s).regs = s.regs := rfl
@[simp] theorem signalHalt_pc (s : State) : (signalHalt s).pc = s.pc := rfl
@[simp] theorem signalHalt_z (s : State) : (signalHalt s).z = s.z := rfl
@[simp] theorem signalHalt_n (s : State) : (signalHalt s).n = s.n := rfl
@[simp] theorem signalHalt_p (s : State) : (signalHalt s).p = s.p := rfl
@[simp] theorem signalHalt_clock (s : State) : (signalHalt s).clock = s.clock := rfl
@[simp] theorem signalHalt_completed (s : State) : (signalHalt s).completed = s.completed := rfl
@[simp] theorem signalHalt_f (s : State) : (signalHalt s).f = s.f := rfl
@[simp] theorem signalHalt_d (s : State) : (signalHalt s).d = s.d := rfl
@[simp] theorem signalHalt_e (s : State) : (signalHalt s).e = s.e := rfl
@[simp] theorem signalHalt_m (s : State) : (signalHalt s).m = s.m := rfl
@[simp] theorem signalHalt_wb (s : State) : (signalHalt s).wb = s.wb := rfl
@[simp] theorem signalHalt_redirectPending (s : State) : (signalHalt s).redirectPending = s.redirectPending := rfl
@[simp] theorem signalHalt_btb (s : State) : (signalHalt s).btb = s.btb := rfl
@[simp] theorem signalHalt_dm (s : State) : (signalHalt s).dm = s.dm := rfl
@[simp] theorem signalHalt_status (s : State) : (signalHalt s).status = s.status := rfl
@[simp] theorem signalHalt_seq (s : State) : (signalHalt s).seq = { s.seq with haltSeen := true } := rfl

/-! The sequencer at a stage -/

@[simp] theorem atStage_cfg (k : Stage) (s : State) : (atStage k s).cfg = s.cfg := rfl
@[simp] theorem atStage_code (k : Stage) (s : State) : (atStage k s).code = s.code := rfl
@[simp] theorem atStage_regs (k : Stage) (s : State) : (atStage k s).regs = s.regs := rfl
@[simp] theorem atStage_pc (k : Stage) (s : State) : (atStage k s).pc = s.pc := rfl
@[simp] theorem atStage_z (k : Stage) (s : State) : (atStage k s).z = s.z := rfl
@[simp] theorem atStage_n (k : Stage) (s : State) : (atStage k s).n = s.n := rfl
@[simp] theorem atStage_p (k : Stage) (s : State) : (atStage k s).p = s.p := rfl
@[simp] theorem atStage_clock (k : Stage) (s : State) : (atStage k s).clock = s.clock := rfl
@[simp] theorem atStage_completed (k : Stage) (s : State) : (atStage k s).completed = s.completed := rfl
@[simp] theorem atStage_f (k : Stage) (s : State) : (atStage k s).f = s.f := rfl
@[simp] theorem atStage_d (k : Stage) (s : State) : (atStage k s).d = s.d := rfl
@[simp] theorem atStage_e (k : Stage) (s : State) : (atStage k s).e = s.e := rfl
@[simp] theorem atStage_m (k : Stage) (s : State) : (atStage k s).m = s.m := rfl
@[simp] theorem atStage_wb (k : Stage) (s : State) : (atStage k s).wb = s.wb := rfl
@[simp] theorem atStage_redirectPending (k : Stage) (s : State) : (atStage k s).redirectPending = s.redirectPending := rfl
@[simp] theorem atStage_btb (k : Stage) (s : State) : (atStage k s).btb = s.btb := rfl
@[simp] theorem atStage_dm (k : Stage) (s : State) : (atStage k s).dm = s.dm := rfl
@[simp] theorem atStage_status (k : Stage) (s : State) : (atStage k s).status = s.status := rfl
@[simp] theorem atStage_seq (k : Stage) (s : State) : (atStage k s).seq = { s.seq with stage := k } := rfl

/-! The end of a cycle (R100, R101) -/

@[simp] theorem endCycle_cfg (s : State) : (endCycle s).cfg = s.cfg := rfl
@[simp] theorem endCycle_code (s : State) : (endCycle s).code = s.code := rfl
@[simp] theorem endCycle_regs (s : State) : (endCycle s).regs = s.regs := rfl
@[simp] theorem endCycle_pc (s : State) : (endCycle s).pc = s.pc := rfl
@[simp] theorem endCycle_z (s : State) : (endCycle s).z = s.z := rfl
@[simp] theorem endCycle_n (s : State) : (endCycle s).n = s.n := rfl
@[simp] theorem endCycle_p (s : State) : (endCycle s).p = s.p := rfl
@[simp] theorem endCycle_clock (s : State) : (endCycle s).clock = s.clock + 1 := rfl
@[simp] theorem endCycle_completed (s : State) : (endCycle s).completed = s.completed := rfl
@[simp] theorem endCycle_f (s : State) : (endCycle s).f = s.f := rfl
@[simp] theorem endCycle_d (s : State) : (endCycle s).d = s.d := rfl
@[simp] theorem endCycle_e (s : State) : (endCycle s).e = s.e := rfl
@[simp] theorem endCycle_m (s : State) : (endCycle s).m = s.m := rfl
@[simp] theorem endCycle_wb (s : State) : (endCycle s).wb = s.wb := rfl
@[simp] theorem endCycle_redirectPending (s : State) : (endCycle s).redirectPending = s.redirectPending := rfl
@[simp] theorem endCycle_btb (s : State) : (endCycle s).btb = s.btb := rfl
@[simp] theorem endCycle_dm (s : State) : (endCycle s).dm = s.dm := rfl
@[simp] theorem endCycle_status (s : State) : (endCycle s).status = if s.seq.haltSeen then .halted else s.status := rfl
@[simp] theorem endCycle_seq (s : State) : (endCycle s).seq = Sequencer.rest := rfl

/-! The stop on a fault (R252) -/

@[simp] theorem stopFaulted_cfg (x : Fault) (s : State) : (stopFaulted x s).cfg = s.cfg := rfl
@[simp] theorem stopFaulted_code (x : Fault) (s : State) : (stopFaulted x s).code = s.code := rfl
@[simp] theorem stopFaulted_regs (x : Fault) (s : State) : (stopFaulted x s).regs = s.regs := rfl
@[simp] theorem stopFaulted_pc (x : Fault) (s : State) : (stopFaulted x s).pc = s.pc := rfl
@[simp] theorem stopFaulted_z (x : Fault) (s : State) : (stopFaulted x s).z = s.z := rfl
@[simp] theorem stopFaulted_n (x : Fault) (s : State) : (stopFaulted x s).n = s.n := rfl
@[simp] theorem stopFaulted_p (x : Fault) (s : State) : (stopFaulted x s).p = s.p := rfl
@[simp] theorem stopFaulted_clock (x : Fault) (s : State) : (stopFaulted x s).clock = s.clock := rfl
@[simp] theorem stopFaulted_completed (x : Fault) (s : State) : (stopFaulted x s).completed = s.completed := rfl
@[simp] theorem stopFaulted_f (x : Fault) (s : State) : (stopFaulted x s).f = s.f := rfl
@[simp] theorem stopFaulted_d (x : Fault) (s : State) : (stopFaulted x s).d = s.d := rfl
@[simp] theorem stopFaulted_e (x : Fault) (s : State) : (stopFaulted x s).e = s.e := rfl
@[simp] theorem stopFaulted_m (x : Fault) (s : State) : (stopFaulted x s).m = s.m := rfl
@[simp] theorem stopFaulted_wb (x : Fault) (s : State) : (stopFaulted x s).wb = s.wb := rfl
@[simp] theorem stopFaulted_redirectPending (x : Fault) (s : State) : (stopFaulted x s).redirectPending = s.redirectPending := rfl
@[simp] theorem stopFaulted_btb (x : Fault) (s : State) : (stopFaulted x s).btb = s.btb := rfl
@[simp] theorem stopFaulted_dm (x : Fault) (s : State) : (stopFaulted x s).dm = s.dm := rfl
@[simp] theorem stopFaulted_status (x : Fault) (s : State) : (stopFaulted x s).status = .faulted (x.record s.clock) := rfl
@[simp] theorem stopFaulted_seq (x : Fault) (s : State) : (stopFaulted x s).seq = Sequencer.rest := rfl

/-! The hazard check (R136 to R138) -/

@[simp] theorem hazardCheck_cfg (s : State) : (hazardCheck s).cfg = s.cfg := rfl
@[simp] theorem hazardCheck_code (s : State) : (hazardCheck s).code = s.code := rfl
@[simp] theorem hazardCheck_regs (s : State) : (hazardCheck s).regs = s.regs := rfl
@[simp] theorem hazardCheck_pc (s : State) : (hazardCheck s).pc = s.pc := rfl
@[simp] theorem hazardCheck_z (s : State) : (hazardCheck s).z = s.z := rfl
@[simp] theorem hazardCheck_n (s : State) : (hazardCheck s).n = s.n := rfl
@[simp] theorem hazardCheck_p (s : State) : (hazardCheck s).p = s.p := rfl
@[simp] theorem hazardCheck_clock (s : State) : (hazardCheck s).clock = s.clock := rfl
@[simp] theorem hazardCheck_completed (s : State) : (hazardCheck s).completed = s.completed := rfl
@[simp] theorem hazardCheck_f (s : State) : (hazardCheck s).f = { s.f with stall := hazardCondition s } := rfl
@[simp] theorem hazardCheck_d (s : State) : (hazardCheck s).d = { s.d with stall := hazardCondition s } := rfl
@[simp] theorem hazardCheck_e (s : State) : (hazardCheck s).e = s.e := rfl
@[simp] theorem hazardCheck_m (s : State) : (hazardCheck s).m = s.m := rfl
@[simp] theorem hazardCheck_wb (s : State) : (hazardCheck s).wb = s.wb := rfl
@[simp] theorem hazardCheck_redirectPending (s : State) : (hazardCheck s).redirectPending = s.redirectPending := rfl
@[simp] theorem hazardCheck_btb (s : State) : (hazardCheck s).btb = s.btb := rfl
@[simp] theorem hazardCheck_dm (s : State) : (hazardCheck s).dm = s.dm := rfl
@[simp] theorem hazardCheck_status (s : State) : (hazardCheck s).status = s.status := rfl
@[simp] theorem hazardCheck_seq (s : State) : (hazardCheck s).seq = s.seq := rfl

/-! The result of the execute arm -/

@[simp] theorem setResult_cfg (v : Word) (s : State) : (setResult v s).cfg = s.cfg := rfl
@[simp] theorem setResult_code (v : Word) (s : State) : (setResult v s).code = s.code := rfl
@[simp] theorem setResult_regs (v : Word) (s : State) : (setResult v s).regs = s.regs := rfl
@[simp] theorem setResult_pc (v : Word) (s : State) : (setResult v s).pc = s.pc := rfl
@[simp] theorem setResult_z (v : Word) (s : State) : (setResult v s).z = s.z := rfl
@[simp] theorem setResult_n (v : Word) (s : State) : (setResult v s).n = s.n := rfl
@[simp] theorem setResult_p (v : Word) (s : State) : (setResult v s).p = s.p := rfl
@[simp] theorem setResult_clock (v : Word) (s : State) : (setResult v s).clock = s.clock := rfl
@[simp] theorem setResult_completed (v : Word) (s : State) : (setResult v s).completed = s.completed := rfl
@[simp] theorem setResult_f (v : Word) (s : State) : (setResult v s).f = s.f := rfl
@[simp] theorem setResult_d (v : Word) (s : State) : (setResult v s).d = s.d := rfl
@[simp] theorem setResult_e (v : Word) (s : State) : (setResult v s).e = { s.e with resultBuffer := v } := rfl
@[simp] theorem setResult_m (v : Word) (s : State) : (setResult v s).m = s.m := rfl
@[simp] theorem setResult_wb (v : Word) (s : State) : (setResult v s).wb = s.wb := rfl
@[simp] theorem setResult_redirectPending (v : Word) (s : State) : (setResult v s).redirectPending = s.redirectPending := rfl
@[simp] theorem setResult_btb (v : Word) (s : State) : (setResult v s).btb = s.btb := rfl
@[simp] theorem setResult_dm (v : Word) (s : State) : (setResult v s).dm = s.dm := rfl
@[simp] theorem setResult_status (v : Word) (s : State) : (setResult v s).status = s.status := rfl
@[simp] theorem setResult_seq (v : Word) (s : State) : (setResult v s).seq = s.seq := rfl

/-! The address of the execute arm -/

@[simp] theorem setAddress_cfg (a : Word) (s : State) : (setAddress a s).cfg = s.cfg := rfl
@[simp] theorem setAddress_code (a : Word) (s : State) : (setAddress a s).code = s.code := rfl
@[simp] theorem setAddress_regs (a : Word) (s : State) : (setAddress a s).regs = s.regs := rfl
@[simp] theorem setAddress_pc (a : Word) (s : State) : (setAddress a s).pc = s.pc := rfl
@[simp] theorem setAddress_z (a : Word) (s : State) : (setAddress a s).z = s.z := rfl
@[simp] theorem setAddress_n (a : Word) (s : State) : (setAddress a s).n = s.n := rfl
@[simp] theorem setAddress_p (a : Word) (s : State) : (setAddress a s).p = s.p := rfl
@[simp] theorem setAddress_clock (a : Word) (s : State) : (setAddress a s).clock = s.clock := rfl
@[simp] theorem setAddress_completed (a : Word) (s : State) : (setAddress a s).completed = s.completed := rfl
@[simp] theorem setAddress_f (a : Word) (s : State) : (setAddress a s).f = s.f := rfl
@[simp] theorem setAddress_d (a : Word) (s : State) : (setAddress a s).d = s.d := rfl
@[simp] theorem setAddress_e (a : Word) (s : State) : (setAddress a s).e = { s.e with memoryAddress := a } := rfl
@[simp] theorem setAddress_m (a : Word) (s : State) : (setAddress a s).m = s.m := rfl
@[simp] theorem setAddress_wb (a : Word) (s : State) : (setAddress a s).wb = s.wb := rfl
@[simp] theorem setAddress_redirectPending (a : Word) (s : State) : (setAddress a s).redirectPending = s.redirectPending := rfl
@[simp] theorem setAddress_btb (a : Word) (s : State) : (setAddress a s).btb = s.btb := rfl
@[simp] theorem setAddress_dm (a : Word) (s : State) : (setAddress a s).dm = s.dm := rfl
@[simp] theorem setAddress_status (a : Word) (s : State) : (setAddress a s).status = s.status := rfl
@[simp] theorem setAddress_seq (a : Word) (s : State) : (setAddress a s).seq = s.seq := rfl

/-! A write of Z alone (R27) -/

@[simp] theorem setZ_cfg (b : Bool) (s : State) : (setZ b s).cfg = s.cfg := rfl
@[simp] theorem setZ_code (b : Bool) (s : State) : (setZ b s).code = s.code := rfl
@[simp] theorem setZ_regs (b : Bool) (s : State) : (setZ b s).regs = s.regs := rfl
@[simp] theorem setZ_pc (b : Bool) (s : State) : (setZ b s).pc = s.pc := rfl
@[simp] theorem setZ_z (b : Bool) (s : State) : (setZ b s).z = b := rfl
@[simp] theorem setZ_n (b : Bool) (s : State) : (setZ b s).n = s.n := rfl
@[simp] theorem setZ_p (b : Bool) (s : State) : (setZ b s).p = s.p := rfl
@[simp] theorem setZ_clock (b : Bool) (s : State) : (setZ b s).clock = s.clock := rfl
@[simp] theorem setZ_completed (b : Bool) (s : State) : (setZ b s).completed = s.completed := rfl
@[simp] theorem setZ_f (b : Bool) (s : State) : (setZ b s).f = s.f := rfl
@[simp] theorem setZ_d (b : Bool) (s : State) : (setZ b s).d = s.d := rfl
@[simp] theorem setZ_e (b : Bool) (s : State) : (setZ b s).e = s.e := rfl
@[simp] theorem setZ_m (b : Bool) (s : State) : (setZ b s).m = s.m := rfl
@[simp] theorem setZ_wb (b : Bool) (s : State) : (setZ b s).wb = s.wb := rfl
@[simp] theorem setZ_redirectPending (b : Bool) (s : State) : (setZ b s).redirectPending = s.redirectPending := rfl
@[simp] theorem setZ_btb (b : Bool) (s : State) : (setZ b s).btb = s.btb := rfl
@[simp] theorem setZ_dm (b : Bool) (s : State) : (setZ b s).dm = s.dm := rfl
@[simp] theorem setZ_status (b : Bool) (s : State) : (setZ b s).status = s.status := rfl
@[simp] theorem setZ_seq (b : Bool) (s : State) : (setZ b s).seq = s.seq := rfl

/-! A write of the three flags (R169) -/

@[simp] theorem setFlags_cfg (z n p : Bool) (s : State) : (setFlags z n p s).cfg = s.cfg := rfl
@[simp] theorem setFlags_code (z n p : Bool) (s : State) : (setFlags z n p s).code = s.code := rfl
@[simp] theorem setFlags_regs (z n p : Bool) (s : State) : (setFlags z n p s).regs = s.regs := rfl
@[simp] theorem setFlags_pc (z n p : Bool) (s : State) : (setFlags z n p s).pc = s.pc := rfl
@[simp] theorem setFlags_z (z n p : Bool) (s : State) : (setFlags z n p s).z = z := rfl
@[simp] theorem setFlags_n (z n p : Bool) (s : State) : (setFlags z n p s).n = n := rfl
@[simp] theorem setFlags_p (z n p : Bool) (s : State) : (setFlags z n p s).p = p := rfl
@[simp] theorem setFlags_clock (z n p : Bool) (s : State) : (setFlags z n p s).clock = s.clock := rfl
@[simp] theorem setFlags_completed (z n p : Bool) (s : State) : (setFlags z n p s).completed = s.completed := rfl
@[simp] theorem setFlags_f (z n p : Bool) (s : State) : (setFlags z n p s).f = s.f := rfl
@[simp] theorem setFlags_d (z n p : Bool) (s : State) : (setFlags z n p s).d = s.d := rfl
@[simp] theorem setFlags_e (z n p : Bool) (s : State) : (setFlags z n p s).e = s.e := rfl
@[simp] theorem setFlags_m (z n p : Bool) (s : State) : (setFlags z n p s).m = s.m := rfl
@[simp] theorem setFlags_wb (z n p : Bool) (s : State) : (setFlags z n p s).wb = s.wb := rfl
@[simp] theorem setFlags_redirectPending (z n p : Bool) (s : State) : (setFlags z n p s).redirectPending = s.redirectPending := rfl
@[simp] theorem setFlags_btb (z n p : Bool) (s : State) : (setFlags z n p s).btb = s.btb := rfl
@[simp] theorem setFlags_dm (z n p : Bool) (s : State) : (setFlags z n p s).dm = s.dm := rfl
@[simp] theorem setFlags_status (z n p : Bool) (s : State) : (setFlags z n p s).status = s.status := rfl
@[simp] theorem setFlags_seq (z n p : Bool) (s : State) : (setFlags z n p s).seq = s.seq := rfl

/-! The redirect (R124) -/

@[simp] theorem redirect_cfg (a : Word) (s : State) : (redirect a s).cfg = s.cfg := rfl
@[simp] theorem redirect_code (a : Word) (s : State) : (redirect a s).code = s.code := rfl
@[simp] theorem redirect_regs (a : Word) (s : State) : (redirect a s).regs = s.regs := rfl
@[simp] theorem redirect_pc (a : Word) (s : State) : (redirect a s).pc = a := rfl
@[simp] theorem redirect_z (a : Word) (s : State) : (redirect a s).z = s.z := rfl
@[simp] theorem redirect_n (a : Word) (s : State) : (redirect a s).n = s.n := rfl
@[simp] theorem redirect_p (a : Word) (s : State) : (redirect a s).p = s.p := rfl
@[simp] theorem redirect_clock (a : Word) (s : State) : (redirect a s).clock = s.clock := rfl
@[simp] theorem redirect_completed (a : Word) (s : State) : (redirect a s).completed = s.completed := rfl
@[simp] theorem redirect_f (a : Word) (s : State) : (redirect a s).f = { s.f with valid := true } := rfl
@[simp] theorem redirect_d (a : Word) (s : State) : (redirect a s).d = { s.d with valid := false } := rfl
@[simp] theorem redirect_e (a : Word) (s : State) : (redirect a s).e = s.e := rfl
@[simp] theorem redirect_m (a : Word) (s : State) : (redirect a s).m = s.m := rfl
@[simp] theorem redirect_wb (a : Word) (s : State) : (redirect a s).wb = s.wb := rfl
@[simp] theorem redirect_redirectPending (a : Word) (s : State) : (redirect a s).redirectPending = true := rfl
@[simp] theorem redirect_btb (a : Word) (s : State) : (redirect a s).btb = s.btb := rfl
@[simp] theorem redirect_dm (a : Word) (s : State) : (redirect a s).dm = s.dm := rfl
@[simp] theorem redirect_status (a : Word) (s : State) : (redirect a s).status = s.status := rfl
@[simp] theorem redirect_seq (a : Word) (s : State) : (redirect a s).seq = s.seq := rfl

end Sys2Proof.Machine
end

