-- ==== Sys2Proof/Laws/Memory.lean ====
section
/-!
SUPPORT. Every memory operation keeps the canonical form of data memory, and reset has it.
-/

namespace Sys2Proof.Machine

/-- A form above `hi` is a form above any smaller bound. -/
theorem wfAbove_mono : ∀ (m : Memory) {lo hi : Nat}, lo ≤ hi → m.wfAbove hi = true → m.wfAbove lo = true
  | [], _, _, _, _ => rfl
  | (k, v) :: rest, lo, hi, h, hm => by
    simp only [Memory.wfAbove, Bool.and_eq_true, decide_eq_true_eq] at hm ⊢
    exact ⟨⟨h.trans hm.1.1, hm.1.2⟩, hm.2⟩

/-- A write at or above the bound keeps the form above it. -/
theorem write_wfAbove : ∀ (m : Memory) (lo a : Nat) (v : Word), lo ≤ a → m.wfAbove lo = true →
    (m.write a v).wfAbove lo = true
  | [], lo, a, v, h, _ => by
    by_cases hv : v = 0#32 <;> simp [Memory.write, Memory.wfAbove, hv, h]
  | (k, w) :: rest, lo, a, v, h, hm => by
    have hm' := hm
    simp only [Memory.wfAbove, Bool.and_eq_true, decide_eq_true_eq, bne_iff_ne, ne_eq] at hm
    obtain ⟨⟨hk, hw⟩, hrest⟩ := hm
    have hw : ¬w = 0#32 := hw
    by_cases h1 : a < k
    · by_cases hv : v = 0#32
      · simp [Memory.write, h1, hv, hm']
      · simp [Memory.write, h1, hv, Memory.wfAbove, h, hw, hrest, Nat.succ_le_of_lt h1]
    · by_cases h2 : a = k
      · by_cases hv : v = 0#32
        · subst h2
          simpa [Memory.write, hv] using wfAbove_mono rest (hk.trans (Nat.le_succ a)) hrest
        · simp [Memory.write, h2, hv, Memory.wfAbove, hk, hrest]
      · have ih := write_wfAbove rest (k + 1) a v (by omega) hrest
        simp [Memory.write, h1, h2, Memory.wfAbove, hk, hw, ih]

/-- A write keeps the canonical form. -/
theorem write_wf {m : Memory} (a : Nat) (v : Word) (h : m.wf = true) : (m.write a v).wf = true :=
  write_wfAbove m 0 a v (Nat.zero_le a) h

/-- The addresses a write leaves listed: the written one and those listed before. -/
theorem mem_write : ∀ {m : Memory} {a : Nat} {v : Word} {x : Nat × Word}, x ∈ m.write a v → x = (a, v) ∨ x ∈ m
  | [], a, v, x, h => by
    by_cases hv : v = 0#32 <;> simp_all [Memory.write]
  | (k, w) :: rest, a, v, x, h => by
    unfold Memory.write at h
    split at h
    · split at h
      · exact .inr h
      · rcases List.mem_cons.1 h with h | h
        · exact .inl h
        · exact .inr h
    · split at h
      · split at h
        · exact .inr (List.mem_cons_of_mem _ h)
        · rcases List.mem_cons.1 h with h | h
          · exact .inl h
          · exact .inr (List.mem_cons_of_mem _ h)
      · rcases List.mem_cons.1 h with h | h
        · exact .inr (h ▸ List.mem_cons_self)
        · exact (mem_write h).imp_right (List.mem_cons_of_mem _)

/-- The words from an address on are in the form above it. -/
theorem ofWords_wfAbove : ∀ (ws : List Word) (a : Nat), (Memory.ofWords ws a).wfAbove a = true
  | [], _ => rfl
  | w :: ws, a => by
    by_cases h : w = 0#32
    · simpa [Memory.ofWords, h] using wfAbove_mono _ (Nat.le_succ a) (ofWords_wfAbove ws (a + 1))
    · simp [Memory.ofWords, h, Memory.wfAbove, ofWords_wfAbove ws (a + 1)]

/-- The memory of a reset block is in canonical form. -/
theorem resetWith_dm_wf (cfg : Config) (code : List Record) (rInit dmInit : List Word) :
    (State.resetWith cfg code rInit dmInit).dm.wf = true :=
  ofWords_wfAbove _ 0

/-- The memory after `State.reset` is in canonical form. -/
theorem reset_dm_wf : State.reset.dm.wf = true := resetWith_dm_wf _ _ _ _

/-- MemWrite keeps the canonical form. -/
theorem memWrite_wf {s t : State} {a v : Word} (h : memWrite s a v = .ok t) (hs : s.dm.wf = true) : t.dm.wf = true := by
  unfold memWrite at h
  split at h
  · cases h
    exact write_wf _ _ hs
  · cases h

end Sys2Proof.Machine
end

