-- ==== Sys2Proof/Laws/Ops.lean ====
section
/-!
SUPPORT. For each shared operation, once, everything it can do: if it answers a next state, a value or a fault, then one
of the stated cases holds. Proofs cite these instead of unfolding the operations.
-/

namespace Sys2Proof.Machine

/-! ### Memory, code memory and registers -/

/-- MemRead answers a word only in range, and then the addressed one. -/
theorem memRead_ok {s : State} {a v : Word} (h : memRead s a = .ok v) :
    dataInRange s.cfg a = true ∧ v = s.dm.read (s32 a).toNat := by
  unfold memRead at h
  split at h
  · cases h
    exact ⟨‹_›, rfl⟩
  · cases h

/-- MemRead faults only out of range, with the address, pc and mnemonic of M. -/
theorem memRead_error {s : State} {a : Word} {x : Fault} (h : memRead s a = .error x) :
    dataInRange s.cfg a = false ∧ x = .dataOutOfRange s.m.pc s.m.op a := by
  unfold memRead at h
  split at h
  · cases h
  · cases h
    exact ⟨Bool.eq_false_iff.2 ‹_›, rfl⟩

/-- MemWrite answers a state only in range, and then with the addressed word written and nothing else changed. -/
theorem memWrite_ok {s t : State} {a v : Word} (h : memWrite s a v = .ok t) :
    dataInRange s.cfg a = true ∧ t = { s with dm := s.dm.write (s32 a).toNat v } := by
  unfold memWrite at h
  split at h
  · cases h
    exact ⟨‹_›, rfl⟩
  · cases h

/-- MemWrite faults only out of range, with the address, pc and mnemonic of M. -/
theorem memWrite_error {s : State} {a v : Word} {x : Fault} (h : memWrite s a v = .error x) :
    dataInRange s.cfg a = false ∧ x = .dataOutOfRange s.m.pc s.m.op a := by
  unfold memWrite at h
  split at h
  · cases h
  · cases h
    exact ⟨Bool.eq_false_iff.2 ‹_›, rfl⟩

/-- A record read from code memory is one of its records. -/
theorem codeAt_mem {c : Config} {code : List Record} {p : Word} {r : Record} (h : codeAt c code p = some r) :
    r ∈ code := by
  unfold codeAt at h
  simp only at h
  split at h
  · exact List.mem_of_getElem? h
  · cases h

/-- A register write answers a state only for an index of the register file, with that register written. -/
theorem writeReg_some {s t : State} {r : Reg} {v : Word} (h : writeReg s r v = some t) :
    r.toNat < s.regs.length ∧ t = { s with regs := s.regs.set r.toNat v } := by
  unfold writeReg at h
  split at h
  · cases h
    exact ⟨‹_›, rfl⟩
  · cases h

/-! ### The part of each stage -/

theorem byStage_fetch {s : State} (h : s.seq.stage = .fetch) (f d e m w : State → Res) :
    byStage s f d e m w = f s := by simp [byStage, h]

theorem byStage_decode {s : State} (h : s.seq.stage = .decode) (f d e m w : State → Res) :
    byStage s f d e m w = d s := by simp [byStage, h]

theorem byStage_execute {s : State} (h : s.seq.stage = .execute) (f d e m w : State → Res) :
    byStage s f d e m w = e s := by simp [byStage, h]

theorem byStage_memory {s : State} (h : s.seq.stage = .memory) (f d e m w : State → Res) :
    byStage s f d e m w = m s := by simp [byStage, h]

theorem byStage_writeback {s : State} (h : s.seq.stage = .writeback) (f d e m w : State → Res) :
    byStage s f d e m w = w s := by simp [byStage, h]

/-- A decode part that reads one register answers a next state only with that operand in the latch it hands on. -/
theorem decodeFirst_next {s t : State} {rs1 : Reg} (h : decodeFirst rs1 s = .next t) :
    ∃ x, fwd s rs1 = some x ∧ t = decodeHandOff { s with d := { s.d with rs1Value := x } } := by
  unfold decodeFirst at h
  split at h
  · cases h
  · cases h
    exact ⟨_, ‹_›, rfl⟩

/-- A decode part that reads two registers answers a next state only with both operands in the latch it hands on. -/
theorem decodeBoth_next {s t : State} {rs1 rs2 : Reg} (h : decodeBoth rs1 rs2 s = .next t) :
    ∃ x y, fwd s rs1 = some x ∧ fwd s rs2 = some y ∧
      t = decodeHandOff { s with d := { s.d with rs1Value := x, rs2Value := y } } := by
  unfold decodeBoth at h
  split at h
  · cases h
  · split at h
    · cases h
    · cases h
      exact ⟨_, _, ‹_›, ‹_›, rfl⟩

/-- The memory part of LOAD: the addressed word in the latch it hands on. -/
theorem memoryLoad_next {s t : State} (h : memoryLoad s = .next t) :
    dataInRange s.cfg s.m.memoryAddress = true ∧
      t = memoryHandOff { s with m := { s.m with resultBuffer := s.dm.read (s32 s.m.memoryAddress).toNat } } := by
  unfold memoryLoad at h
  split at h
  · cases h
  · cases h
    obtain ⟨hr, rfl⟩ := memRead_ok ‹_›
    exact ⟨hr, rfl⟩

/-- The memory part of STORE: the addressed word written. -/
theorem memoryStore_next {s t : State} (h : memoryStore s = .next t) :
    dataInRange s.cfg s.m.memoryAddress = true ∧
      t = memoryHandOff { s with dm := s.dm.write (s32 s.m.memoryAddress).toNat s.m.resultBuffer } := by
  unfold memoryStore at h
  split at h
  · cases h
  · cases h
    obtain ⟨hr, rfl⟩ := memWrite_ok ‹_›
    exact ⟨hr, rfl⟩

/-- The memory part of LOAD faults only out of range. -/
theorem memoryLoad_fault {s : State} {x : Fault} (h : memoryLoad s = .fault x) :
    dataInRange s.cfg s.m.memoryAddress = false ∧ x = .dataOutOfRange s.m.pc s.m.op s.m.memoryAddress := by
  unfold memoryLoad at h
  split at h
  · cases h
    exact memRead_error ‹_›
  · cases h

/-- The memory part of STORE faults only out of range. -/
theorem memoryStore_fault {s : State} {x : Fault} (h : memoryStore s = .fault x) :
    dataInRange s.cfg s.m.memoryAddress = false ∧ x = .dataOutOfRange s.m.pc s.m.op s.m.memoryAddress := by
  unfold memoryStore at h
  split at h
  · cases h
    exact memWrite_error ‹_›
  · cases h

/-- The writeback part of a register writer: the register written, the instruction retired. -/
theorem writebackReg_next {s t : State} {rd : Reg} (h : writebackReg rd s = .next t) :
    rd.toNat < s.regs.length ∧ t = retire { s with regs := s.regs.set rd.toNat s.wb.resultBuffer } := by
  unfold writebackReg at h
  split at h
  · cases h
  · cases h
    obtain ⟨hr, rfl⟩ := writeReg_some ‹_›
    exact ⟨hr, rfl⟩

/-! ### The sub-steps, the cycle and the step -/

/-- A stage does nothing with a bubble or a stalled latch, and otherwise runs its latch's instruction. -/
theorem stageStep_cases (k : Stage) (l : Latch) (s : State) :
    (l.stall = true ∨ l.valid = false) ∧ stageStep k l s = .next s ∨
    (l.stall = false ∧ l.valid = true) ∧ stageStep k l s = exec l.instr (atStage k s) := by
  unfold stageStep
  cases hs : l.stall <;> cases hv : l.valid <;> simp

/-- The prediction step changes at most pc. -/
theorem btbPredictStep_next {s t : State} (h : btbPredictStep s = .next t) : ∃ p, t = { s with pc := p } := by
  unfold btbPredictStep at h
  repeat' split at h
  all_goals first
    | (cases h; exact ⟨s.pc, rfl⟩)
    | (simp only at h; repeat' split at h) <;> first | (cases h; exact ⟨_, rfl⟩) | cases h

/-- The prediction step never faults. -/
theorem btbPredictStep_fault {s : State} {x : Fault} : btbPredictStep s ≠ .fault x := by
  intro h
  unfold btbPredictStep at h
  repeat' split at h
  all_goals first
    | cases h
    | (simp only at h; repeat' split at h) <;> cases h

/-- The read of the fetch sub-step runs the record at pc. -/
theorem fetchRead_next {s t : State} (h : fetchRead s = .next t) :
    ∃ r, codeRead s s.pc = some r ∧ exec r.instr (atStage .fetch (latchFetched r s)) = .next t := by
  unfold fetchRead at h
  split at h
  · cases h
  · exact ⟨_, ‹_›, h⟩

/-- Everything the fetch sub-step can do when it answers a next state. -/
theorem fetchStep_next {s t : State} (h : fetchStep s = .next t) :
    (s.f.stall = true ∧ t = hazardCheck s) ∨
    (s.f.stall = false ∧ s.f.valid = false ∧ t = s) ∨
    (s.f.stall = false ∧ s.f.valid = true ∧ s.redirectPending = true ∧ t = { s with redirectPending := false }) ∨
    (s.f.stall = false ∧ s.f.valid = true ∧ s.redirectPending = false ∧
      ∃ u, btbPredictStep s = .next u ∧ fetchRead u = .next t) := by
  unfold fetchStep at h
  cases hs : s.f.stall <;> cases hv : s.f.valid <;> cases hp : s.redirectPending <;> simp [hs, hv, hp] at h ⊢
  case false.true.false =>
    split at h
    · exact ⟨_, ‹_›, h⟩
    · cases h
    · cases h
  all_goals exact h.symm

/-- A sub-step of a cycle either hands its state to the next one or, by a fault, ends the run with the state it started
from. -/
theorem runSubSteps_next {k : Stage} {rest : List Stage} {s t : State} (h : runSubSteps (k :: rest) s = .next t) :
    (∃ u, subStep k s = .next u ∧ runSubSteps rest u = .next t) ∨
    (∃ x, subStep k s = .fault x ∧ t = stopFaulted x s) := by
  unfold runSubSteps at h
  split at h
  · exact .inl ⟨_, ‹_›, h⟩
  · cases h
    exact .inr ⟨_, ‹_›, rfl⟩
  · cases h

/-- A step is a cycle of a running block with a program, or nothing once the run has ended. -/
theorem step_next {s t : State} (h : step s = .next t) :
    (s.status = .running ∧ s.code ≠ [] ∧ cycle s = .next t) ∨ (s.status ≠ .running ∧ t = s) := by
  unfold step at h
  split at h
  · split at h
    · cases h
    · exact .inl ⟨‹_›, fun hc => ‹¬_› (by simp [hc]), h⟩
  all_goals
    cases h
    exact .inr ⟨by simp [*], rfl⟩

end Sys2Proof.Machine
end

