-- ==== Sys2Proof/Laws/PerInstr.lean ====
section
/-!
SUPPORT. Statements made per instruction of the opcode table: the encoding of an instruction lies in its row, that is, its
opcode number is the row's and its reserved byte is 0 (30_encoding.md R81, R82), so that match and mask hold.
-/

namespace Sys2Proof.Laws.EncodesItsRow

/-- The opcode field of the encoding of `i` is the opcode number of its mnemonic, and the reserved byte is 0. -/
def Statement (i : Instr) : Prop :=
  (encode i).toNat / 2 ^ 58 = i.op.opc.toNat ∧ (encode i).toNat / 2 ^ 32 % 2 ^ 8 = 0

/-- The word of every record lies in the row of its mnemonic. -/
theorem word_in_row (r : Record) : r.word.toNat / 2 ^ 58 = r.op.opc.toNat ∧ r.word.toNat / 2 ^ 32 % 2 ^ 8 = 0 := by
  have h1 := r.rd.isLt
  have h2 := r.rs1.isLt
  have h3 := r.rs2.isLt
  have h4 := r.imm.isLt
  rw [word_toNat]
  omega

theorem nop : Statement (.nop) := word_in_row _
theorem add (rd rs1 rs2 : Reg) : Statement (.add rd rs1 rs2) := word_in_row _
theorem sub (rd rs1 rs2 : Reg) : Statement (.sub rd rs1 rs2) := word_in_row _
theorem and (rd rs1 rs2 : Reg) : Statement (.and rd rs1 rs2) := word_in_row _
theorem or (rd rs1 rs2 : Reg) : Statement (.or rd rs1 rs2) := word_in_row _
theorem xor (rd rs1 rs2 : Reg) : Statement (.xor rd rs1 rs2) := word_in_row _
theorem addl (rd rs1 : Reg) (imm : Word) : Statement (.addl rd rs1 imm) := word_in_row _
theorem subl (rd rs1 : Reg) (imm : Word) : Statement (.subl rd rs1 imm) := word_in_row _
theorem movc (rd : Reg) (imm : Word) : Statement (.movc rd imm) := word_in_row _
theorem load (rd rs1 : Reg) (imm : Word) : Statement (.load rd rs1 imm) := word_in_row _
theorem store (rs1 rs2 : Reg) (imm : Word) : Statement (.store rs1 rs2 imm) := word_in_row _
theorem cmp (rs1 rs2 : Reg) : Statement (.cmp rs1 rs2) := word_in_row _
theorem bz (imm : Word) : Statement (.bz imm) := word_in_row _
theorem bnz (imm : Word) : Statement (.bnz imm) := word_in_row _
theorem bp (imm : Word) : Statement (.bp imm) := word_in_row _
theorem bnp (imm : Word) : Statement (.bnp imm) := word_in_row _
theorem bn (imm : Word) : Statement (.bn imm) := word_in_row _
theorem bnn (imm : Word) : Statement (.bnn imm) := word_in_row _
theorem jump (rs1 : Reg) (imm : Word) : Statement (.jump rs1 imm) := word_in_row _
theorem jal (rd rs1 : Reg) (imm : Word) : Statement (.jal rd rs1 imm) := word_in_row _
theorem halt : Statement (.halt) := word_in_row _

end Sys2Proof.Laws.EncodesItsRow
end

