-- ==== Sys2Proof/Tests/Slice0.lean ====
section
/-!
SUPPORT. The model's own tests: the decoder on words written out from 30_encoding.md R81 and R82, the refusals, one
execute, memory or writeback part per instruction against the vectors of 95_test_vectors.md, and for every statement
with hypotheses a concrete state and operands that meet them.
-/

namespace Sys2Proof.Tests

open Sys2Proof Sys2Proof.Machine Sys2Proof.Claims

/-- Whether the decoder, with the default 16 registers, reads instruction `i` from word `w`. -/
def reads (w : CodeWord) (i : Instr) : Bool :=
  match decodeInstr 16 w with
  | .ok j => j == i
  | .error _ => false

/-- Whether the decoder, with 16 registers, refuses word `w` by the name `x`. -/
def refuses (w : CodeWord) (x : LoadFailure) : Bool :=
  match decode 16 w with
  | .ok _ => false
  | .error y => y == x

/-! ### Decoding: opc in bits 63 to 58, rd in 57 to 52, rs1 in 51 to 46, rs2 in 45 to 40, imm in 31 to 0 (R81) -/

/-- EV-6. -/
theorem test_decode_nop : reads 0x0000000000000000 .nop = true := by decide
/-- EV-2: opc 1, rd 3, rs1 1, rs2 2. -/
theorem test_decode_add : reads 0x0430420000000000 (.add 3 1 2) = true := by decide
/-- opc 000010, rd 000001, rs1 000010, rs2 000011. -/
theorem test_decode_sub :
    reads 0b0000100000010000100000110000000000000000000000000000000000000000 (.sub 1 2 3) = true := by decide
/-- opc 000011, rd 001111, rs1 000000, rs2 000111. -/
theorem test_decode_and :
    reads 0b0000110011110000000001110000000000000000000000000000000000000000 (.and 15 0 7) = true := by decide
/-- opc 000100, rd 000000, rs1 001111, rs2 000001. -/
theorem test_decode_or :
    reads 0b0001000000000011110000010000000000000000000000000000000000000000 (.or 0 15 1) = true := by decide
/-- opc 000101, rd 000110, rs1 000101, rs2 000100. -/
theorem test_decode_xor :
    reads 0b0001010001100001010001000000000000000000000000000000000000000000 (.xor 6 5 4) = true := by decide
/-- opc 000110, rd 000111, rs1 000110, imm 8. -/
theorem test_decode_addl : reads 0x1871800000000008 (.addl 7 6 8) = true := by decide
/-- opc 000111, rd 000001, rs1 000001, imm 1. -/
theorem test_decode_subl : reads 0x1C10400000000001 (.subl 1 1 1) = true := by decide
/-- EV-1, and EV-7 with the most negative immediate. -/
theorem test_decode_movc :
    reads 0x2010000000000005 (.movc 1 5) = true ∧ reads 0x2010000080000000 (.movc 1 0x80000000) = true := by decide
/-- EV-9. -/
theorem test_decode_load : reads 0x2430000000000064 (.load 3 0 100) = true := by decide
/-- EV-8: the base is rs1 = 0 and the data rs2 = 2. -/
theorem test_decode_store : reads 0x2800020000000064 (.store 0 2 100) = true := by decide
/-- opc 001011, rs1 000001, rs2 000010. -/
theorem test_decode_cmp : reads 0x2C00420000000000 (.cmp 1 2) = true := by decide
/-- EV-3, and EV-15 with the unused rd field 63. -/
theorem test_decode_bz :
    reads 0x3000000000000008 (.bz 8) = true ∧ reads 0x33F0000000000008 (.bz 8) = true := by decide
/-- EV-4: the immediate is -8. -/
theorem test_decode_bnz : reads 0x34000000FFFFFFF8 (.bnz (wrap32 (-8))) = true := by decide
/-- opc 001110, imm 16. -/
theorem test_decode_bp : reads 0x3800000000000010 (.bp 16) = true := by decide
/-- opc 001111, imm 4. -/
theorem test_decode_bnp : reads 0x3C00000000000004 (.bnp 4) = true := by decide
/-- opc 010000, imm 12. -/
theorem test_decode_bn : reads 0x400000000000000C (.bn 12) = true := by decide
/-- opc 010001, imm -4. -/
theorem test_decode_bnn : reads 0x44000000FFFFFFFC (.bnn (wrap32 (-4))) = true := by decide
/-- opc 010010, rs1 000110, imm 0. -/
theorem test_decode_jump : reads 0x4801800000000000 (.jump 6 0) = true := by decide
/-- EV-10. -/
theorem test_decode_jal : reads 0x4C61400000000000 (.jal 6 5 0) = true := by decide
/-- EV-5. -/
theorem test_decode_halt : reads 0x5000000000000000 .halt = true := by decide
/-- EV-16: the unused rs1 field 20 does not matter. -/
theorem test_decode_unused_field : reads 0x2015000000000005 (.movc 1 5) = true := by decide

/-- EV-11. -/
theorem test_refuse_opcode_21 : refuses 0x5400000000000000 .badOpcode = true := by decide
/-- EV-12: the opcode check comes first. -/
theorem test_refuse_opcode_first : refuses 0xFC00000100000000 .badOpcode = true := by decide
/-- EV-13. -/
theorem test_refuse_reserved : refuses 0x0000000100000000 .reservedBits = true := by decide
/-- EV-14. -/
theorem test_refuse_register : refuses 0x0500000000000000 .badRegister = true := by decide

/-- The opcode table's numbering: bit 0 is the least significant, bits from `nbits` on are 0 (log 15). -/
theorem test_table_word :
    decodeTableWord 64 0x0430420000000000 = some (.add 3 1 2) ∧
      decodeTableWord 64 0x5400000000000000 = none := by decide

/-! ### WellFormed smoke: each register field of each format is checked -/

theorem test_ill_formed_rd :
    (Instr.add 16 0 0).wf 16 = false ∧ (Instr.addl 16 0 0).wf 16 = false ∧ (Instr.movc 16 0).wf 16 = false ∧
      (Instr.load 16 0 0).wf 16 = false ∧ (Instr.jal 63 0 0).wf 16 = false := by decide
theorem test_ill_formed_rs1 :
    (Instr.xor 0 16 0).wf 16 = false ∧ (Instr.subl 0 16 0).wf 16 = false ∧ (Instr.store 16 0 0).wf 16 = false ∧
      (Instr.cmp 16 0).wf 16 = false ∧ (Instr.jump 16 0).wf 16 = false := by decide
theorem test_ill_formed_rs2 :
    (Instr.sub 0 0 16).wf 16 = false ∧ (Instr.store 0 16 0).wf 16 = false ∧ (Instr.cmp 0 16).wf 16 = false := by
  decide
theorem test_well_formed_limit : (Instr.add 15 15 15).wf 16 = true ∧ (Instr.and 63 63 63).wf 64 = true := by decide

/-! ### Instructions: one part each, on a small state -/

/-- The reset block with the sequencer at stage `k`. -/
def inStage (k : Stage) : State := atStage k State.reset

/-- The reset block in its execute sub-step, with an instruction at `pc` whose operand values are `a` and `b`. -/
def inE (pc a b : Word) : State :=
  { inStage .execute with e := { Latch.zero with valid := true, pc := pc, rs1Value := a, rs2Value := b } }

/-- The reset block in its memory sub-step, with data word 3 equal to 21 and address `a`, result `v` in M. -/
def inM (op : Op) (a v : Word) : State :=
  { inStage .memory with
    dm := [(3, 21)]
    m := { Latch.zero with valid := true, pc := 4004, op := op, memoryAddress := a, resultBuffer := v } }

/-- The result handed to M, and Z. -/
def result (o : Res) : Option (Word × Bool) :=
  match o with
  | .next t => some (t.m.resultBuffer, t.z)
  | .fault _ | .refused _ => none

/-- Z, N and P. -/
def flags (o : Res) : Option (Bool × Bool × Bool) :=
  match o with
  | .next t => some (t.z, t.n, t.p)
  | .fault _ | .refused _ => none

/-- The fetch pointer and the refetch delay. -/
def fetchState (o : Res) : Option (Word × Bool) :=
  match o with
  | .next t => some (t.pc, t.redirectPending)
  | .fault _ | .refused _ => none

/-- The fault. -/
def faultOf (o : Res) : Option Fault :=
  match o with
  | .fault x => some x
  | .next _ | .refused _ => none

/-- PV-1. -/
theorem test_add_wraps : result (exec (.add 1 2 3) (inE 4000 0x7FFFFFFF 1)) = some (0x80000000, false) := by decide
/-- PV-1: 5 + -5. -/
theorem test_add_zero : result (exec (.add 1 2 3) (inE 4000 5 (wrap32 (-5)))) = some (0, true) := by decide
/-- PV-1. -/
theorem test_sub_wraps : result (exec (.sub 1 2 3) (inE 4000 0x80000000 1)) = some (0x7FFFFFFF, false) := by decide
/-- PV-1: 3 - 5 is -2. -/
theorem test_sub_order : result (exec (.sub 1 2 3) (inE 4000 3 5)) = some (0xFFFFFFFE, false) := by decide
/-- PV-8. -/
theorem test_and : result (exec (.and 1 2 3) (inE 4000 0xF0F 0xFF)) = some (0xF, false) := by decide
/-- PV-8: a zero result leaves Z. -/
theorem test_and_keeps_z : result (exec (.and 1 2 3) (inE 4000 0 0)) = some (0, false) := by decide
/-- PV-8. -/
theorem test_or : result (exec (.or 1 2 3) (inE 4000 0xF0F 0xFF)) = some (0xFFF, false) := by decide
/-- PV-8. -/
theorem test_xor : result (exec (.xor 1 2 3) (inE 4000 0xFFFFFFFF 0x1234)) = some (0xFFFFEDCB, false) := by decide
/-- PV-10: -3 + 3. -/
theorem test_addl : result (exec (.addl 1 2 3) (inE 4000 (wrap32 (-3)) 9)) = some (0, true) := by decide
/-- PV-10. -/
theorem test_subl : result (exec (.subl 1 2 1) (inE 4000 0x80000000 9)) = some (0x7FFFFFFF, false) := by decide
/-- PV-10: Z is not set. -/
theorem test_movc :
    result (exec (.movc 1 0x80000000) (inE 4000 7 7)) = some (0x80000000, false) ∧
      result (exec (.movc 1 0) (inE 4000 7 7)) = some (0, false) := by decide
/-- PV-9: the comparison is signed. -/
theorem test_cmp_signed : flags (exec (.cmp 1 2) (inE 4000 1 (wrap32 (-1)))) = some (false, false, true) := by decide
/-- PV-9. -/
theorem test_cmp_limits :
    flags (exec (.cmp 1 2) (inE 4000 0x80000000 0x7FFFFFFF)) = some (false, true, false) ∧
      flags (exec (.cmp 1 2) (inE 4000 0 0)) = some (true, false, false) := by decide

/-- DM[3] = 21 (PV-7), into the latch WB. -/
theorem test_load :
    (match exec (.load 1 0 3) (inM .load 3 0) with
      | .next t => t.wb.resultBuffer
      | .fault _ | .refused _ => 0) = 21 := by decide
/-- PV-21: the first address out of range. -/
theorem test_load_out_of_range :
    faultOf (exec (.load 2 1 0) (inM .load 4096 0)) = some (.dataOutOfRange 4004 .load 4096) := by decide
/-- The last word, and word 3 kept. -/
theorem test_store :
    (match exec (.store 0 2 0) (inM .store 4095 77) with
      | .next t => (t.dm.read 4095, t.dm.read 3)
      | .fault _ | .refused _ => (0, 0)) = (77, 21) := by decide
/-- PV-22: address -1. -/
theorem test_store_out_of_range :
    faultOf (exec (.store 0 0 (wrap32 (-1))) (inM .store 0xFFFFFFFF 5)) =
      some (.dataOutOfRange 4004 .store 0xFFFFFFFF) := by decide

/-- PV-25, first row (Z N P = 0 0 0): BNZ, BNP and BNN are taken, to 4004 + 8. -/
theorem test_branches_reset_flags :
    fetchState (exec (.bz 8) (inE 4004 0 0)) = some (4000, false) ∧
    fetchState (exec (.bnz 8) (inE 4004 0 0)) = some (4012, true) ∧
    fetchState (exec (.bp 8) (inE 4004 0 0)) = some (4000, false) ∧
    fetchState (exec (.bnp 8) (inE 4004 0 0)) = some (4012, true) ∧
    fetchState (exec (.bn 8) (inE 4004 0 0)) = some (4000, false) ∧
    fetchState (exec (.bnn 8) (inE 4004 0 0)) = some (4012, true) := by decide
/-- PV-25, rows 1 1 0 and 1 0 1: BZ, BN and BP are taken; PV-31's target 3996 is not checked here. -/
theorem test_branches_set_flags :
    fetchState (exec (.bz (wrap32 (-8))) (setFlags true true false (inE 4004 0 0))) = some (3996, true) ∧
    fetchState (exec (.bn 8) (setFlags true true false (inE 4004 0 0))) = some (4012, true) ∧
    fetchState (exec (.bnp 8) (setFlags true true false (inE 4004 0 0))) = some (4012, true) ∧
    fetchState (exec (.bp 8) (setFlags true false true (inE 4004 0 0))) = some (4012, true) ∧
    fetchState (exec (.bnn 8) (setFlags true true false (inE 4004 0 0))) = some (4000, false) ∧
    fetchState (exec (.bnz 8) (setFlags true true false (inE 4004 0 0))) = some (4000, false) := by decide
/-- PV-14. -/
theorem test_jump : fetchState (exec (.jump 0 4008) (inE 4000 0 9)) = some (4008, true) := by decide
/-- WE-6 and PV-15: the link is 4008, the target 4012. -/
theorem test_jal :
    fetchState (exec (.jal 6 5 0) (inE 4004 4012 9)) = some (4012, true) ∧
      result (exec (.jal 6 5 0) (inE 4004 4012 9)) = some (4008, false) := by decide
/-- R113: fetching HALT turns fetch off and keeps the copy in D. -/
theorem test_halt_fetch :
    (match exec .halt (inStage .fetch) with
      | .next t => (t.f.valid, t.d.valid, t.pc)
      | .fault _ | .refused _ => (true, false, 0)) = (false, true, 4004) := by decide
/-- R114: a fetched NOP leaves D invalid and fetch enabled. -/
theorem test_nop_fetch :
    (match exec .nop (inStage .fetch) with
      | .next t => (t.f.valid, t.d.valid, t.pc)
      | .fault _ | .refused _ => (false, true, 0)) = (true, false, 4004) := by decide
/-- R21, R132: R0 is an ordinary register. -/
theorem test_write_r0 :
    (match exec (.movc 0 7) { inStage .writeback with wb := { Latch.zero with valid := true, resultBuffer := 7 } } with
      | .next t => (t.regs[0]?, t.completed)
      | .fault _ | .refused _ => (none, 0)) = (some 7, 1) := by decide

/-! ### Forwarding and hazards -/

/-- A state with the given latches M and WB and 1 in every register. -/
def withMWb (m wb : Latch) : State := { State.reset with regs := List.replicate 16 1, m := m, wb := wb }

/-- A valid latch of a writer. -/
def writer (op : Op) (rd : Reg) (v : Word) : Latch :=
  { Latch.zero with valid := true, op := op, rd := rd, resultBuffer := v }

/-- PV-34: M wins, a LOAD in M is skipped, WB is used, a non-writer is not. -/
theorem test_fwd :
    fwd (withMWb (writer .add 5 9) (writer .movc 5 4)) 5 = some 9 ∧
    fwd (withMWb (writer .load 5 0) (writer .movc 5 4)) 5 = some 4 ∧
    fwd (withMWb Latch.zero (writer .load 5 21)) 5 = some 21 ∧
    fwd (withMWb (writer .cmp 5 9) (writer .store 5 4)) 5 = some 1 ∧
    fwd (withMWb (writer .add 6 9) Latch.zero) 5 = some 1 := by decide

/-- A state with the given latches E and D. -/
def withED (e d : Latch) : State := { State.reset with e := e, d := d }

/-- A valid latch of a reader. -/
def reader (op : Op) (rs1 rs2 : Reg) : Latch := { Latch.zero with valid := true, op := op, rs1 := rs1, rs2 := rs2 }

/-- PV-33. -/
theorem test_hazard :
    hazardCondition (withED (writer .movc 1 0) (reader .add 2 1)) = true ∧
    hazardCondition (withED (writer .movc 0 0) (reader .add 0 0)) = false ∧
    hazardCondition (withED (writer .load 3 0) (reader .store 0 3)) = true ∧
    hazardCondition (withED (writer .cmp 1 0) (reader .add 1 1)) = false ∧
    hazardCondition (withED (writer .movc 1 0) (reader .movc 1 1)) = false ∧
    hazardCondition (withED (writer .jal 6 0) (reader .jump 6 0)) = true := by decide

/-- PV-32: the rows 0b00 and 0b10. -/
theorem test_btb_predict :
    btbPredict 0 .bz = true ∧ btbPredict 0 .bnz = false ∧ btbPredict 0 .bnp = true ∧ btbPredict 0 .bn = false ∧
    btbPredict 2 .bz = false ∧ btbPredict 2 .bp = true ∧ btbPredict 2 .bnn = false := by decide

/-! ### States for the witnesses -/

/-- The invariant as a computation. -/
def invCheck (s : State) : Bool :=
  let legal (l : Latch) : Bool := !l.valid || (l.instr.wf s.cfg.numRegs && l.op != .nop)
  let free (l : Latch) (younger : Bool) : Bool := !(l.valid && l.op == .halt) || !younger
  s.cfg.wf && s.cfg.fits s.code.length && s.code.all (fun r => r.instr.wf s.cfg.numRegs) &&
    decide (s.regs.length = s.cfg.numRegs) && s.dm.wf && s.dm.all (fun x => decide (x.1 < s.cfg.dataWords)) &&
    decide (s.btb = List.replicate s.cfg.btbEntries BtbEntry.empty) && !s.e.stall && !s.m.stall && !s.wb.stall &&
    decide (s.d.stall = s.f.stall) && decide (s.f.stall = hazardCondition s) &&
    (!s.redirectPending || (s.f.valid && !s.d.valid)) && legal s.d && legal s.e && legal s.m && legal s.wb &&
    free s.d s.f.valid && free s.e (s.f.valid || s.d.valid) && free s.m (s.f.valid || s.d.valid || s.e.valid) &&
    free s.wb (s.f.valid || s.d.valid || s.e.valid || s.m.valid) && decide (s.seq = Sequencer.rest)

theorem inv_of_check {s : State} (h : invCheck s = true) : s.Inv := by
  simp only [invCheck, Bool.and_eq_true, Bool.or_eq_true, Bool.not_eq_true', decide_eq_true_eq, List.all_eq_true,
    bne_iff_ne, ne_eq, Bool.or_eq_false_iff, Bool.and_eq_false_iff, beq_eq_false_iff_ne] at h
  obtain ⟨⟨⟨⟨⟨⟨⟨⟨⟨⟨⟨⟨⟨⟨⟨⟨⟨⟨⟨⟨⟨h1, h2⟩, h3⟩, h4⟩, h5⟩, h6⟩, h7⟩, h8⟩, h9⟩, h10⟩, h11⟩, h12⟩, h13⟩, h14⟩, h15⟩, h16⟩, h17⟩,
    h18⟩, h19⟩, h20⟩, h21⟩, h22⟩ := h
  constructor <;> first | assumption | (intro h; simp_all [Latch.isHalt])

/-- The block right after a launch with the default parameters and the given program and data. -/
def launched (program : List Instr) (dm : List Word) : State :=
  match launch Config.default (some (program.map encode)) true [] dm with
  | .ok s => s
  | .error _ => State.reset

/-- The state a step gives. -/
def stepped (s : State) : State :=
  match step s with
  | .next t => t
  | .fault _ | .refused _ => s

/-- The step gives a next state. -/
def steps (s : State) : Bool :=
  match step s with
  | .next _ => true
  | .fault _ | .refused _ => false

theorem step_of_steps {s : State} (h : steps s = true) : step s = .next (stepped s) := by
  unfold steps at h
  unfold stepped
  split at h <;> simp_all

/-- The state after `k` steps. -/
def afterSteps : Nat → State → State
  | 0, s => s
  | k + 1, s => afterSteps k (stepped s)

/-- The step gives a next state that is not Faulted. -/
def cleanCheck (s : State) : Bool := decide (s.status = .running) && steps s && (faulted (stepped s)).isNone

theorem clean_of_check {s : State} (h : cleanCheck s = true) : cleanCycle s (stepped s) := by
  simp only [cleanCheck, Bool.and_eq_true, decide_eq_true_eq, Option.isNone_iff_eq_none] at h
  exact ⟨h.1.1, step_of_steps h.1.2, h.2⟩

/-- PR-1 of 95_test_vectors.md after `k` cycles. -/
def sumBlock (k : Nat) : State := afterSteps k (launched [.movc 1 5, .movc 2 10, .add 3 1 2, .halt] [])

/-- PV-15a (the stalled JAL) after `k` cycles. -/
def jalBlock (k : Nat) : State := afterSteps k (launched [.movc 5 4012, .jal 6 5 0, .add 7 6 6, .halt] [])

/-- PV-14 after `k` cycles. -/
def jumpBlock (k : Nat) : State := afterSteps k (launched [.jump 0 4008, .movc 7 1, .halt] [])

/-- PV-29 after `k` cycles. -/
def dataFaultBlock (k : Nat) : State :=
  afterSteps k (launched [.movc 1 1, .movc 2 2, .load 3 0 (wrap32 (-5)), .movc 4 4, .halt] [])

/-- PV-18 after `k` cycles. -/
def fetchFaultBlock (k : Nat) : State := afterSteps k (launched [.movc 1 1, .jump 0 4000] [])

/-- PV-6a after `k` cycles. -/
def loadR0Block (k : Nat) : State := afterSteps k (launched [.load 0 0 3, .add 1 0 0, .halt] [0, 0, 0, 21])

/-- PV-24 after `k` cycles. -/
def storeBlock (k : Nat) : State :=
  afterSteps k (launched [.movc 1 9, .movc 4 0, .store 0 1 7, .load 2 0 7, .halt] [])

/-! ### Witnesses: for every statement with hypotheses, states and operands that meet them, clause by clause -/

theorem witness_DecodeReadsBackEveryLegalRecord :
    (Record.instr { op := .bz, rd := 63, rs1 := 63, rs2 := 63, imm := 8 }).wf 16 = true ∧
      (Record.instr { op := .add, rd := 15, rs1 := 15, rs2 := 15, imm := 8 }).wf 16 = true := by decide

theorem witness_DecodeOfEncodeIsTheInstruction :
    (Instr.add 15 15 15).wf 16 = true ∧ (Instr.store 63 63 0x80000000).wf 64 = true := by decide

theorem witness_AcceptedWordIsItsRecordsWord :
    decode 16 0x33F0000000000008 = .ok { op := .bz, rd := 63, rs1 := 0, rs2 := 0, imm := 8 } := rfl

/-- The opcode limit 20 and 21, a reserved bit, and register 15 and 16 in a used field. -/
theorem witness_DecoderChecksInOrder :
    20 < (0x5400000000000000 : CodeWord).toNat / 2 ^ 58 ∧
    ((0x5000000100000000 : CodeWord).toNat / 2 ^ 58 ≤ 20 ∧ (0x5000000100000000 : CodeWord).toNat / 2 ^ 32 % 2 ^ 8 ≠ 0) ∧
    ((0x04F3CF0000000000 : CodeWord).toNat / 2 ^ 58 ≤ 20 ∧ (0x04F3CF0000000000 : CodeWord).toNat / 2 ^ 32 % 2 ^ 8 = 0) ∧
    (∀ f ∈ usedFields { op := .add, rd := 15, rs1 := 15, rs2 := 15, imm := 0 }, f.toNat < 16) ∧
    (∃ f ∈ usedFields { op := .store, rd := 0, rs1 := 0, rs2 := 16, imm := 0 }, 16 ≤ f.toNat) := by
  decide

theorem witness_LoadedCodeIsTheDecodedProgram :
    launch Config.default (some [encode .halt]) true [] [] =
      .ok (State.resetWith Config.default [{ op := .halt, rd := 0, rs1 := 0, rs2 := 0, imm := 0 }] [] []) := rfl

theorem witness_LoadRefusesByTheFirstBadWord :
    Config.default.fits ([encode .halt] ++ 0x5400000000000000 :: [encode .halt]).length = true ∧
    (∀ w ∈ [encode .halt], ∃ r, decode Config.default.numRegs w = .ok r) ∧
    decode Config.default.numRegs 0x5400000000000000 = .error .badOpcode := by
  refine ⟨by decide, ?_, rfl⟩
  intro w hw
  rw [List.mem_singleton.1 hw]
  exact ⟨_, rfl⟩

theorem witness_ResetGivesEveryStateItem : 15 < Config.default.numRegs ∧ 4095 < Config.default.dataWords := by decide

theorem witness_LaunchedBlockSatisfiesInvariant :
    Config.default.wf = true ∧
      launch Config.default (some [encode .halt]) true [7] [9] =
        .ok (State.resetWith Config.default [{ op := .halt, rd := 0, rs1 := 0, rs2 := 0, imm := 0 }] [7] [9]) :=
  ⟨by decide, rfl⟩

theorem witness_EveryStepKeepsInvariant :
    (sumBlock 3).Inv ∧ step (sumBlock 3) = .next (stepped (sumBlock 3)) :=
  ⟨inv_of_check (by decide +kernel), step_of_steps (by decide +kernel)⟩

theorem witness_EveryBlockSteps : (sumBlock 3).Inv ∧ (sumBlock 3).code ≠ [] :=
  ⟨inv_of_check (by decide +kernel), by decide +kernel⟩

theorem witness_StepRunsTheFetchedInstruction :
    let s := sumBlock 0
    s.status = .running ∧ codeRead s s.pc = some { op := .movc, rd := 1, rs1 := 0, rs2 := 0, imm := 5 } ∧
      s.f.valid = true ∧ s.f.stall = false ∧ s.redirectPending = false ∧ (∀ x ∈ s.btb, x.tag = none) ∧
      s.d.valid = false ∧ s.e.valid = false ∧ s.m.valid = false ∧ s.wb.valid = false := by decide +kernel

theorem witness_PlacedWordIsTheFirstInstructionRun : decodeTableWord 64 0x0430420000000000 = some (.add 3 1 2) := rfl

/-- Each stage with a valid unstalled latch, a bubble and a stalled latch. -/
theorem witness_StageRunsItsLatchsInstruction :
    let live : Latch := { Latch.zero with valid := true }
    let held : Latch := { Latch.zero with valid := true, stall := true }
    let s := { State.reset with d := live, e := live, m := live, wb := live }
    let h := { State.reset with d := held, e := held, m := held, wb := held }
    (s.wb.valid = true ∧ s.wb.stall = false) ∧ (s.m.valid = true ∧ s.m.stall = false) ∧
    (s.e.valid = true ∧ s.e.stall = false) ∧ (s.d.valid = true ∧ s.d.stall = false) ∧
    (State.reset.wb.valid = false ∧ h.wb.stall = true) ∧ (State.reset.m.valid = false ∧ h.m.stall = true) ∧
    (State.reset.e.valid = false ∧ h.e.stall = true) ∧ (State.reset.d.valid = false ∧ h.d.stall = true) := by decide

/-- The state a sub-step gives. -/
def subStepped (k : Stage) (s : State) : State :=
  match subStep k s with
  | .next t => t
  | .fault _ | .refused _ => s

theorem witness_CycleRunsTheSubStepsInOrder :
    ∃ s a b c d e : State, s.status = .running ∧ s.code ≠ [] ∧ writebackStep s = .next a ∧ memoryStep a = .next b ∧
      executeStep b = .next c ∧ decodeStep c = .next d ∧ fetchStep d = .next e := by
  refine ⟨sumBlock 0, sumBlock 0, sumBlock 0, sumBlock 0, sumBlock 0, subStepped .fetch (sumBlock 0), ?_, ?_, rfl, rfl, rfl,
    rfl, rfl⟩ <;> decide +kernel

theorem fault_of_faultOf {o : Res} {x : Fault} (h : faultOf o = some x) : o = .fault x := by
  cases o <;> simp_all [faultOf]

/-- A data fault (PV-22 in M) and a fetch fault (pc past the one record). -/
theorem witness_FaultStopsTheRun :
    (∃ (s a : State) (x : Fault), s.status = .running ∧ s.code ≠ [] ∧ writebackStep s = .next a ∧
      memoryStep a = .fault x) ∧
    (∃ (s a b c d : State) (x : Fault), s.status = .running ∧ s.code ≠ [] ∧ writebackStep s = .next a ∧
      memoryStep a = .next b ∧ executeStep b = .next c ∧ decodeStep c = .next d ∧ fetchStep d = .fault x) := by
  let s : State := launched [.halt] []
  let m : Latch := { Latch.zero with valid := true, op := .store, memoryAddress := 0xFFFFFFFF }
  refine ⟨⟨{ s with m := m }, { s with m := m }, .dataOutOfRange 0 .store 0xFFFFFFFF, ?_, ?_, rfl, fault_of_faultOf ?_⟩,
    ⟨{ s with pc := 4004 }, { s with pc := 4004 }, { s with pc := 4004 }, { s with pc := 4004 }, { s with pc := 4004 },
      .fetchOutOfRange 4004, ?_, ?_, rfl, rfl, rfl, rfl, fault_of_faultOf ?_⟩⟩ <;> decide +kernel

theorem witness_EndedRunStaysEnded : (sumBlock 9).status ≠ .running ∧ (quit State.reset).status ≠ .running := by
  decide +kernel

/-! ### Witnesses of the instruction statements -/

/-- States in each stage, and registers that can be read and written, as the instruction statements assume. -/
def partsMet (rd rs1 rs2 : Reg) : Prop :=
  (inStage .fetch).seq.stage = .fetch ∧
  ((inStage .decode).seq.stage = .decode ∧ fwd (inStage .decode) rs1 = some 0 ∧ fwd (inStage .decode) rs2 = some 0) ∧
  (inStage .execute).seq.stage = .execute ∧ (inStage .memory).seq.stage = .memory ∧
  ((inStage .writeback).seq.stage = .writeback ∧ rd.toNat < (inStage .writeback).regs.length)

theorem witness_AddAndSubFollowTheirRules : partsMet 15 0 15 := by unfold partsMet; decide
theorem witness_LogicalInstructionsFollowTheirRules : partsMet 0 15 1 := by unfold partsMet; decide
theorem witness_ImmediateArithmeticFollowsItsRules : partsMet 15 15 15 := by unfold partsMet; decide
theorem witness_MovcFollowsItsRule : partsMet 0 0 0 := by unfold partsMet; decide
theorem witness_CmpFollowsItsRule : partsMet 1 2 15 := by unfold partsMet; decide

/-- Addresses 0, 4095, -1 and 4096 in M. -/
theorem witness_LoadFollowsItsRule :
    partsMet 15 15 15 ∧
    (0 ≤ s32 (inM .load 0 0).m.memoryAddress ∧ s32 (inM .load 0 0).m.memoryAddress < (inM .load 0 0).cfg.dataWords) ∧
    s32 (inM .load 4095 0).m.memoryAddress < (inM .load 4095 0).cfg.dataWords ∧
    s32 (inM .load 0xFFFFFFFF 0).m.memoryAddress < 0 ∧
    (inM .load 4096 0).cfg.dataWords ≤ s32 (inM .load 4096 0).m.memoryAddress := by unfold partsMet; decide

theorem witness_StoreFollowsItsRule :
    partsMet 15 15 15 ∧
    (0 ≤ s32 (inM .store 0 0).m.memoryAddress ∧ s32 (inM .store 0 0).m.memoryAddress < (inM .store 0 0).cfg.dataWords ∧
      (inM .store 0 0).dm.wf = true) ∧
    s32 (inM .store 4095 0).m.memoryAddress < (inM .store 4095 0).cfg.dataWords ∧
    s32 (inM .store 0xFFFFFFFF 0).m.memoryAddress < 0 ∧
    (inM .store 4096 0).cfg.dataWords ≤ s32 (inM .store 4096 0).m.memoryAddress := by unfold partsMet; decide

/-- A state in the execute stage on which each branch is taken, and one on which it is not. -/
theorem witness_ConditionalBranchesFollowTheirRules :
    partsMet 0 0 0 ∧
    (let s := setFlags true true true (inStage .execute)
     s.seq.stage = .execute ∧ s.z = true ∧ s.p = true ∧ s.n = true) ∧
    (let s := inStage .execute
     s.seq.stage = .execute ∧ s.z = false ∧ s.p = false ∧ s.n = false) := by unfold partsMet; decide

theorem witness_JumpAndJalFollowTheirRules : partsMet 6 5 5 := by unfold partsMet; decide
theorem witness_HaltAndNopFollowTheirRules : partsMet 0 0 0 := by unfold partsMet; decide

/-! ### Witnesses of the operations -/

/-- The limits of the data address range, from both sides. -/
theorem witness_DataAccessRules :
    (inM .load 0 0).dm.wf = true ∧ (0 ≤ s32 0 ∧ s32 0 < Config.default.dataWords) ∧
    (0 ≤ s32 4095 ∧ s32 4095 < Config.default.dataWords) ∧ s32 0xFFFFFFFF < 0 ∧
    Config.default.dataWords ≤ s32 4096 := by decide

theorem witness_EqualReadsAreEqualMemories :
    Memory.wf [(3, 21)] = true ∧ Memory.wf (Memory.write [(3, 0)] 3 21) = true ∧
      (∀ a, Memory.read [(3, 21)] a = Memory.read (Memory.write [(3, 0)] 3 21) a) :=
  ⟨by decide, by decide, fun _ => rfl⟩

theorem witness_CodeReadRule :
    1 ≤ (sumBlock 0).cfg.stride ∧ codeRead { sumBlock 0 with pc := 4016 } 4016 = none ∧
      codeRead { sumBlock 0 with pc := 3996 } 3996 = none := by decide +kernel

/-- M a source; M a LOAD of the register and WB a source; neither. -/
theorem witness_ForwardingMuxRule :
    (let s := withMWb (writer .add 5 9) (writer .movc 5 4)
     s.m.valid = true ∧ s.m.op = .add ∧ s.m.rd = 5) ∧
    (let s := withMWb (writer .load 5 0) (writer .movc 5 4)
     s.m.op = .load ∧ s.wb.valid = true ∧ s.wb.op = .movc ∧ s.wb.rd = 5) ∧
    (let s := withMWb (writer .cmp 5 0) (writer .store 5 4)
     s.m.op = .cmp ∧ s.wb.op = .store) := by decide

/-- A hazard, and the exempt destination R0. -/
theorem witness_HazardCheckRule :
    (let s := withED (writer .load 3 0) (reader .store 0 3)
     s.e.valid = true ∧ s.d.valid = true ∧ s.e.op = .load ∧ s.e.rd ≠ 0 ∧ s.d.op = .store ∧ s.d.rs2 = s.e.rd) ∧
    (let s := withED (writer .load 0 0) (reader .store 0 0)
     s.e.valid = true ∧ s.d.valid = true ∧ ¬s.e.rd ≠ 0) := by decide

theorem witness_FetchWaitsWhenStalledDisabledOrDelayed :
    (sumBlock 3).f.stall = true ∧ ((sumBlock 5).f.stall = false ∧ (sumBlock 5).f.valid = false) ∧
    (let s := { sumBlock 0 with redirectPending := true }
     s.f.stall = false ∧ s.f.valid = true ∧ s.redirectPending = true) := by decide +kernel

theorem witness_BtbLookupAndPredictionTable :
    (∀ x ∈ State.reset.btb, x.tag ≠ some 4000) ∧
    (let x : BtbEntry := { tag := some 4004, history := 1, target := some 4000 }
     (∀ y ∈ [BtbEntry.empty, { x with tag := some 4000 }], y.tag ≠ some 4004) ∧ x.tag = some 4004) := by decide

/-- No record at pc; no branch at pc; a branch that misses, one that hits predicted taken and one predicted not taken. -/
theorem witness_BtbPredictionStepRule :
    let entry (h : BitVec 2) : BtbEntry := { tag := some 4000, history := h, target := some 4008 }
    let s := launched [.bz 8, .halt] []
    codeRead { s with pc := 3999 } 3999 = none ∧
    ((codeRead s 4004).map Record.op = some .halt ∧ Op.halt ∉ [Op.bz, .bnz, .bp, .bnp, .bn, .bnn]) ∧
    ((codeRead s s.pc).map Record.op = some .bz ∧ btbLookup s.btb s.pc = none) ∧
    (∀ h : BitVec 2,
      let t := { s with btb := [BtbEntry.empty, entry h] }
      btbLookup t.btb t.pc = some 1 ∧ t.btb[1]? = some (entry h)) ∧
    (btbPredict 0 .bz = true ∧ (entry 0).target = some 4008) ∧ btbPredict 1 .bz = false := by decide +kernel

/-! ### Witnesses of the cycle statements -/

theorem witness_CodeAndBtbNeverChange : step (sumBlock 3) = .next (stepped (sumBlock 3)) :=
  step_of_steps (by decide +kernel)

/-- A cycle that completes and one that faults. -/
theorem witness_ClockCountsCompletedCycles :
    ((sumBlock 3).status = .running ∧ step (sumBlock 3) = .next (stepped (sumBlock 3)) ∧
      faulted (stepped (sumBlock 3)) = none) ∧
    ((fetchFaultBlock 2).status = .running ∧ step (fetchFaultBlock 2) = .next (stepped (fetchFaultBlock 2)) ∧
      faulted (stepped (fetchFaultBlock 2)) ≠ none) :=
  ⟨⟨by decide +kernel, step_of_steps (by decide +kernel), by decide +kernel⟩,
    by decide +kernel, step_of_steps (by decide +kernel), by decide +kernel⟩

/-- A cycle with an instruction in WB, one with WB a bubble, one with WB stalled. -/
theorem witness_OnlyWritebackWritesRegisters :
    let h := { sumBlock 4 with wb := { (sumBlock 4).wb with stall := true } }
    ((sumBlock 4).status = .running ∧ steps (sumBlock 4) = true ∧ (sumBlock 4).wb.valid = true ∧
      (sumBlock 4).wb.stall = false) ∧
    ((sumBlock 3).status = .running ∧ steps (sumBlock 3) = true ∧ (sumBlock 3).wb.valid = false) ∧
    (h.status = .running ∧ steps h = true ∧ h.wb.stall = true) := by decide +kernel

/-- A cycle with the STORE to word 7 in M, and one without a STORE there. -/
theorem witness_OnlyAStoreInMWritesMemory :
    ((storeBlock 5).status = .running ∧ (storeBlock 5).dm.wf = true ∧ steps (storeBlock 5) = true ∧
      (storeBlock 5).m.valid = true ∧ (storeBlock 5).m.stall = false ∧ (storeBlock 5).m.op = .store ∧
      (storeBlock 5).m.memoryAddress = 7) ∧
    ((storeBlock 6).status = .running ∧ (storeBlock 6).dm.wf = true ∧ steps (storeBlock 6) = true ∧
      (storeBlock 6).m.op = .load) := by decide +kernel

/-- E a bubble, and E holding an ADD, which may change Z alone. -/
theorem witness_OnlyExecuteWritesFlags :
    ((sumBlock 0).status = .running ∧ steps (sumBlock 0) = true ∧ (sumBlock 0).e.valid = false) ∧
    ((sumBlock 5).status = .running ∧ steps (sumBlock 5) = true ∧ (sumBlock 5).e.valid = true ∧
      (sumBlock 5).e.op = .add) := by decide +kernel

/-- A transfer, a plain fetch, a stalled fetch and a disabled fetch. -/
theorem witness_FetchPointerMovesOnlyByFetchOrTransfer :
    ((jumpBlock 2).Inv ∧ cleanCycle (jumpBlock 2) (stepped (jumpBlock 2)) ∧ eTransfers (jumpBlock 2) = true) ∧
    ((sumBlock 1).Inv ∧ cleanCycle (sumBlock 1) (stepped (sumBlock 1)) ∧ eTransfers (sumBlock 1) = false ∧
      (sumBlock 1).f.valid = true ∧ (sumBlock 1).f.stall = false ∧ (sumBlock 1).redirectPending = false) ∧
    ((sumBlock 3).Inv ∧ cleanCycle (sumBlock 3) (stepped (sumBlock 3)) ∧ eTransfers (sumBlock 3) = false ∧
      (sumBlock 3).f.stall = true) ∧
    ((sumBlock 6).Inv ∧ cleanCycle (sumBlock 6) (stepped (sumBlock 6)) ∧ eTransfers (sumBlock 6) = false ∧
      (sumBlock 6).f.valid = false) :=
  ⟨⟨inv_of_check (by decide +kernel), clean_of_check (by decide +kernel), by decide +kernel⟩,
    ⟨inv_of_check (by decide +kernel), clean_of_check (by decide +kernel), by decide +kernel⟩,
    ⟨inv_of_check (by decide +kernel), clean_of_check (by decide +kernel), by decide +kernel⟩,
    inv_of_check (by decide +kernel), clean_of_check (by decide +kernel), by decide +kernel⟩

/-- A stall behind a MOVC, and one behind a JAL that executes. -/
theorem witness_StallLastsOneCycle :
    ((sumBlock 3).Inv ∧ cleanCycle (sumBlock 3) (stepped (sumBlock 3)) ∧ (sumBlock 3).f.stall = true ∧
      eTransfers (sumBlock 3) = false) ∧
    ((jalBlock 4).Inv ∧ cleanCycle (jalBlock 4) (stepped (jalBlock 4)) ∧ (jalBlock 4).f.stall = true ∧
      eTransfers (jalBlock 4) = true) :=
  ⟨⟨inv_of_check (by decide +kernel), clean_of_check (by decide +kernel), by decide +kernel⟩,
    inv_of_check (by decide +kernel), clean_of_check (by decide +kernel), by decide +kernel⟩

/-- An unstalled transfer and a stalled one, each with the cycle after it. -/
theorem witness_TakenTransferFlushesAndRefetches :
    ((jumpBlock 2).Inv ∧ cleanCycle (jumpBlock 2) (stepped (jumpBlock 2)) ∧ eTransfers (jumpBlock 2) = true ∧
      (jumpBlock 2).f.stall = false ∧ cleanCycle (stepped (jumpBlock 2)) (stepped (stepped (jumpBlock 2)))) ∧
    ((jalBlock 4).Inv ∧ cleanCycle (jalBlock 4) (stepped (jalBlock 4)) ∧ eTransfers (jalBlock 4) = true ∧
      (jalBlock 4).f.stall = true ∧ cleanCycle (stepped (jalBlock 4)) (stepped (stepped (jalBlock 4)))) :=
  ⟨⟨inv_of_check (by decide +kernel), clean_of_check (by decide +kernel), by decide +kernel, by decide +kernel,
      clean_of_check (by decide +kernel)⟩,
    inv_of_check (by decide +kernel), clean_of_check (by decide +kernel), by decide +kernel, by decide +kernel,
    clean_of_check (by decide +kernel)⟩

theorem witness_RetiringHaltEndsTheRun :
    (sumBlock 8).Inv ∧ (sumBlock 8).status = .running ∧ (sumBlock 8).code ≠ [] ∧ (sumBlock 8).wb.valid = true ∧
      (sumBlock 8).wb.op = .halt :=
  ⟨inv_of_check (by decide +kernel), by decide +kernel⟩

/-- PV-29 with the LOAD in M and a MOVC in WB. -/
theorem witness_DataFaultIsPrecise :
    (dataFaultBlock 5).Inv ∧ (dataFaultBlock 5).status = .running ∧ (dataFaultBlock 5).code ≠ [] ∧
      dataFaultInM (dataFaultBlock 5) :=
  ⟨inv_of_check (by decide +kernel), by decide +kernel, by decide +kernel, by unfold dataFaultInM; decide +kernel⟩

theorem witness_FetchOutOfRangeFaults :
    (fetchFaultBlock 2).Inv ∧ (fetchFaultBlock 2).status = .running ∧ (fetchFaultBlock 2).code ≠ [] ∧
      ¬dataFaultInM (fetchFaultBlock 2) ∧ eTransfers (fetchFaultBlock 2) = false ∧
      (fetchFaultBlock 2).f.valid = true ∧ (fetchFaultBlock 2).f.stall = false ∧
      (fetchFaultBlock 2).redirectPending = false ∧ codeRead (fetchFaultBlock 2) (fetchFaultBlock 2).pc = none :=
  ⟨inv_of_check (by decide +kernel), by decide +kernel, by decide +kernel, by unfold dataFaultInM; decide +kernel,
    by decide +kernel⟩

/-- The ADD of PR-1 in D after its stall; it reads both registers. -/
theorem witness_DecodedOperandsAreProgramOrderValues :
    ∃ a b : Arch, (sumBlock 4).Inv ∧ cleanCycle (sumBlock 4) (stepped (sumBlock 4)) ∧ (sumBlock 4).d.valid = true ∧
      (sumBlock 4).f.stall = false ∧ eTransfers (sumBlock 4) = false ∧ loadUseR0 (sumBlock 4) = false ∧
      afterM (sumBlock 4) = some a ∧ completeE (sumBlock 4).cfg (sumBlock 4).e a = some b ∧
      readsRs1 (sumBlock 4).d.op = true ∧ readsRs2 (sumBlock 4).d.op = true :=
  ⟨(afterM (sumBlock 4)).getD (visible State.reset), (afterM (sumBlock 4)).getD (visible State.reset),
    inv_of_check (by decide +kernel), clean_of_check (by decide +kernel), by decide +kernel⟩

/-- PV-6a: the LOAD into R0 in E and the ADD that reads R0 twice in D. -/
theorem witness_LoadIntoR0GivesTheOldValue :
    ∃ a : Arch, (loadR0Block 2).Inv ∧ cleanCycle (loadR0Block 2) (stepped (loadR0Block 2)) ∧
      loadUseR0 (loadR0Block 2) = true ∧ afterM (loadR0Block 2) = some a ∧
      (loadR0Block 2).d.op = .add ∧ (loadR0Block 2).d.rs1 = 0 ∧ (loadR0Block 2).d.rs2 = 0 :=
  ⟨(afterM (loadR0Block 2)).getD (visible State.reset), inv_of_check (by decide +kernel),
    clean_of_check (by decide +kernel), by decide +kernel⟩

/-- A cycle that fetches an instruction of the path, a stalled one, and the cycle of a transfer. -/
theorem witness_PipelineRefinesSequentialExecution :
    ((sumBlock 4).Inv ∧ cleanCycle (sumBlock 4) (stepped (sumBlock 4)) ∧ loadUseR0 (sumBlock 4) = false ∧
      fetchesOnPath (sumBlock 4) (stepped (sumBlock 4)) = true) ∧
    ((sumBlock 3).Inv ∧ cleanCycle (sumBlock 3) (stepped (sumBlock 3)) ∧ loadUseR0 (sumBlock 3) = false ∧
      fetchesOnPath (sumBlock 3) (stepped (sumBlock 3)) = false) ∧
    ((jumpBlock 2).Inv ∧ cleanCycle (jumpBlock 2) (stepped (jumpBlock 2)) ∧ loadUseR0 (jumpBlock 2) = false ∧
      fetchesOnPath (jumpBlock 2) (stepped (jumpBlock 2)) = false) :=
  ⟨⟨inv_of_check (by decide +kernel), clean_of_check (by decide +kernel), by decide +kernel⟩,
    ⟨inv_of_check (by decide +kernel), clean_of_check (by decide +kernel), by decide +kernel⟩,
    inv_of_check (by decide +kernel), clean_of_check (by decide +kernel), by decide +kernel⟩

/-- EV-15: a BZ whose unused fields differ, in code memory and in D. -/
theorem witness_DontCareFieldsNeverMatter :
    let s := { launched [.bz 8, .halt] [] with d := { Latch.zero with valid := true, op := .bz, imm := 8 } }
    let s' := { s with
      code := { op := .bz, rd := 63, rs1 := 63, rs2 := 63, imm := 8 } :: s.code.drop 1
      d := { s.d with rd := 63, rs1 := 63, rs2 := 63 } }
    s ≠ s' ∧ s.normal = s'.normal := by decide +kernel

/-- An ADDL and the HALT behind it after two cycles of their run: the ADDL alone in E, the HALT in D, fetch disabled. -/
def lastBlock : State := afterSteps 2 (launched [.addl 1 2 7, .halt] [])

theorem witness_LoneInstructionRetiresWithItsEffect :
    ∃ a : Arch, lastBlock.Inv ∧ lastBlock.status = .running ∧ lastBlock.code ≠ [] ∧ lastBlock.d.valid = true ∧
      lastBlock.d.op = .halt ∧ lastBlock.e.valid = true ∧ lastBlock.m.valid = false ∧ lastBlock.wb.valid = false ∧
      transfers lastBlock.e.instr lastBlock.z lastBlock.n lastBlock.p = false ∧
      effect lastBlock.cfg lastBlock.e.pc lastBlock.e.instr lastBlock.e.rs1Value lastBlock.e.rs2Value
        (visible lastBlock) = some a ∧ a.reg 1 = 7 :=
  ⟨(effect lastBlock.cfg lastBlock.e.pc lastBlock.e.instr lastBlock.e.rs1Value lastBlock.e.rs2Value
      (visible lastBlock)).getD (visible State.reset),
    inv_of_check (by decide +kernel), by decide +kernel⟩

theorem witness_QuitStopsAndReportCounts :
    State.reset.status = .running ∧ (sumBlock 9).status = .halted ∧
      (stepped (fetchFaultBlock 2)).status =
        .faulted { kind := .fetchOutOfRange, code := 1, pc := 4008, op := none, addr := none, clock := 2 } := by
  decide +kernel

theorem witness_SingleStepOnlyPaces :
    drive true (List.replicate (0 + 1) false) (sumBlock 0) = .next (stepped (sumBlock 0)) := by
  simp [drive, step_of_steps (s := sumBlock 0) (by decide +kernel)]

theorem witness_TraceShowsEveryStateItem :
    (sumBlock 3).cfg = (sumBlock 3).cfg ∧ (sumBlock 3).code = (sumBlock 3).code ∧ (sumBlock 3).seq = Sequencer.rest ∧
      trace .everyItem (sumBlock 3) = trace .everyItem (sumBlock 3) := by decide +kernel

/-- R262 and R40: whether the trace shows `redirect_pending` is the ruling's. -/
theorem test_trace_redirect :
    (trace .everyItem { State.reset with redirectPending := true }).redirectPending = some true ∧
      (trace .accessTable { State.reset with redirectPending := true }).redirectPending = none := by decide

/-- A taken BNZ with the MOVC before it in M, and the stalled JAL with the two cycles after it. -/
theorem witness_TransferSparesOlderAndStalledOneRefetchesLater :
    (let t := afterSteps 3 (launched [.movc 5 1, .bnz 8, .movc 3 9, .halt] [])
     t.Inv ∧ cleanCycle t (stepped t) ∧ eTransfers t = true ∧ t.m.valid = true) ∧
    ((jalBlock 4).Inv ∧ cleanCycle (jalBlock 4) (stepped (jalBlock 4)) ∧ eTransfers (jalBlock 4) = true ∧
      (jalBlock 4).f.stall = true ∧ cleanCycle (stepped (jalBlock 4)) (stepped (stepped (jalBlock 4))) ∧
      cleanCycle (stepped (stepped (jalBlock 4))) (stepped (stepped (stepped (jalBlock 4))))) :=
  ⟨⟨inv_of_check (by decide +kernel), clean_of_check (by decide +kernel), by decide +kernel⟩,
    inv_of_check (by decide +kernel), clean_of_check (by decide +kernel), by decide +kernel, by decide +kernel,
    clean_of_check (by decide +kernel), clean_of_check (by decide +kernel)⟩

end Sys2Proof.Tests
end

/-!
PROOF. The rules of the shared layer, written for the statements about the state items (10_state.md): what an
instruction's part in each stage is, what each stage sub-step changes and keeps, what a cycle keeps of what its sub-steps
keep, and what data memory reads after reset and after a write.
-/

namespace Sys2Proof

/-! ### The instruction of a record -/

/-- The instruction of a record has the record's mnemonic. -/
@[simp] theorem Record.instr_op (r : Record) : r.instr.op = r.op := by
  cases r with
  | mk op rd rs1 rs2 imm => cases op <;> rfl

namespace Machine

/-- The instruction of a register writer keeps the record's rd field. -/
theorem instr_rd_of_isWriter {r : Record} (h : isWriter r.op = true) : r.instr.record.rd = r.rd := by
  cases r with
  | mk op rd rs1 rs2 imm =>
    cases op with
    | add | sub | and | or | xor | addl | subl | movc | load | jal => rfl
    | _ => cases h

/-- The instruction of a record that reads rs1 keeps the field. -/
theorem instr_rs1_of_readsRs1 {r : Record} (h : readsRs1 r.op = true) : r.instr.record.rs1 = r.rs1 := by
  cases r with
  | mk op rd rs1 rs2 imm =>
    cases op with
    | add | sub | and | or | xor | cmp | store | addl | subl | load | jump | jal => rfl
    | _ => cases h

/-- The instruction of a record that reads rs2 keeps the field. -/
theorem instr_rs2_of_readsRs2 {r : Record} (h : readsRs2 r.op = true) : r.instr.record.rs2 = r.rs2 := by
  cases r with
  | mk op rd rs1 rs2 imm =>
    cases op with
    | add | sub | and | or | xor | cmp | store => rfl
    | _ => cases h

/-- An instruction that reads rs2 reads rs1 too (R105). -/
theorem readsRs1_of_readsRs2 {op : Op} (h : readsRs2 op = true) : readsRs1 op = true := by
  cases op with
  | add | sub | and | or | xor | cmp | store => rfl
  | _ => cases h

/-- The instruction in a latch has the latch's mnemonic. -/
@[simp] theorem Latch.instr_op (l : Latch) : l.instr.op = l.op := Record.instr_op _

/-- The destination of a register writer is the rd field of its latch. -/
theorem Latch.instr_rd {l : Latch} (h : isWriter l.op = true) : l.instr.record.rd = l.rd := instr_rd_of_isWriter h

/-- The first source of an instruction that reads one is the rs1 field of its latch. -/
theorem Latch.instr_rs1 {l : Latch} (h : readsRs1 l.op = true) : l.instr.record.rs1 = l.rs1 := instr_rs1_of_readsRs1 h

/-- The second source of an instruction that reads one is the rs2 field of its latch. -/
theorem Latch.instr_rs2 {l : Latch} (h : readsRs2 l.op = true) : l.instr.record.rs2 = l.rs2 := instr_rs2_of_readsRs2 h

/-! ### An instruction's part in each stage -/

/-- The fetch part: the hand-off, after which HALT disables fetch and NOP is dropped (R111 to R114). -/
def fetchPart (i : Instr) (s : State) : State :=
  match i.op with
  | .halt => { fetchHandOff s with f := { s.f with valid := false } }
  | .nop => { fetchHandOff s with d := { s.f with valid := false } }
  | _ => fetchHandOff s

/-- In the fetch sub-step every instruction completes, with its `fetchPart`. -/
theorem exec_fetch (i : Instr) {s : State} (h : s.seq.stage = .fetch) : exec i s = .next (fetchPart i s) := by
  cases i <;> exact byStage_fetch h ..

/-- The decode part: which operands go through the forwarding mux, by the mnemonic alone (R116 to R118). -/
theorem exec_decode (i : Instr) {s : State} (h : s.seq.stage = .decode) :
    exec i s =
      if readsRs2 i.op then decodeBoth i.record.rs1 i.record.rs2 s
      else if readsRs1 i.op then decodeFirst i.record.rs1 s
      else decodeNone s := by
  cases i <;> exact byStage_decode h ..

/-- What the execute arm leaves in E and in the flags, the redirect of a transfer left out (R123). -/
def executeResult (i : Instr) (s : State) : State :=
  match i with
  | .add .. => setResultZ (addWrap s.e.rs1Value s.e.rs2Value) s
  | .sub .. => setResultZ (subWrap s.e.rs1Value s.e.rs2Value) s
  | .and .. => setResult (s.e.rs1Value &&& s.e.rs2Value) s
  | .or .. => setResult (s.e.rs1Value ||| s.e.rs2Value) s
  | .xor .. => setResult (s.e.rs1Value ^^^ s.e.rs2Value) s
  | .addl _ _ imm => setResultZ (addWrap s.e.rs1Value imm) s
  | .subl _ _ imm => setResultZ (subWrap s.e.rs1Value imm) s
  | .movc _ imm => setResult imm s
  | .cmp .. =>
    setFlags (cmpZ s.e.rs1Value s.e.rs2Value) (cmpN s.e.rs1Value s.e.rs2Value) (cmpP s.e.rs1Value s.e.rs2Value) s
  | .load _ _ imm => setAddress (baseOffset imm s) s
  | .store _ _ imm => setResult s.e.rs2Value (setAddress (baseOffset imm s) s)
  | .jal .. => setResult (nextPc s.cfg s.e.pc) s
  | .nop | .halt | .jump .. | .bz _ | .bnz _ | .bp _ | .bnp _ | .bn _ | .bnn _ => s

/-- The execute arm: the result, and the redirect if the instruction leaves the sequential path (R123, R124). -/
def executeArm (i : Instr) (s : State) : State :=
  if transfers i s.z s.n s.p then redirect (transferTarget i s.e.pc s.e.rs1Value) (executeResult i s)
  else executeResult i s

/-- In the execute sub-step every instruction completes: its `executeArm`, then the hand-off to M. -/
theorem exec_execute (i : Instr) {s : State} (h : s.seq.stage = .execute) :
    exec i s = .next (executeHandOff (executeArm i s)) := by
  cases i <;> exact byStage_execute h ..

/-- The memory part: only LOAD and STORE access data memory (R127 to R129). -/
theorem exec_memory (i : Instr) {s : State} (h : s.seq.stage = .memory) :
    exec i s = if i.op = .load then memoryLoad s else if i.op = .store then memoryStore s else memoryPass s := by
  cases i <;> exact byStage_memory h ..

/-- The writeback part: a register writer writes rd, HALT signals the halt, every other instruction is only counted
(R132 to R135). -/
theorem exec_writeback (i : Instr) {s : State} (h : s.seq.stage = .writeback) :
    exec i s =
      if isWriter i.op then writebackReg i.record.rd s else if i.op = .halt then writebackHalt s else writebackNone s := by
  cases i <;> exact byStage_writeback h ..

/-! ### What the execute arm changes -/

/-- The execute arm's result reaches only the flags and the result fields of E. -/
theorem executeResult_frame (i : Instr) (s : State) :
    ∃ z n p v a, executeResult i s =
      { s with z := z, n := n, p := p, e := { s.e with resultBuffer := v, memoryAddress := a } } := by
  cases i <;> exact ⟨_, _, _, _, _, rfl⟩

/-- Z is written by ADD, SUB, ADDL, SUBL and CMP alone (10_state.md R27). -/
theorem executeResult_z {i : Instr} (s : State) (h : i.op ∉ [Op.add, .sub, .addl, .subl, .cmp]) :
    (executeResult i s).z = s.z := by
  cases i with
  | add | sub | addl | subl | cmp => simp [Instr.op] at h
  | _ => rfl

/-- N and P are written by CMP alone (10_state.md R27). -/
theorem executeResult_n_p {i : Instr} (s : State) (h : i.op ≠ .cmp) :
    (executeResult i s).n = s.n ∧ (executeResult i s).p = s.p := by
  cases i with
  | cmp => exact absurd rfl h
  | _ => exact ⟨rfl, rfl⟩

/-! ### The stage sub-steps: exactly what a live latch does, and what no latch changes -/

/-- A stage with a valid, unstalled latch runs its instruction. -/
theorem stageStep_live {l : Latch} (k : Stage) (s : State) (hv : l.valid = true) (hs : l.stall = false) :
    stageStep k l s = exec l.instr (atStage k s) := by
  simp [stageStep, hv, hs]

/-- A stage with a bubble or a stalled latch does nothing (R103). -/
theorem stageStep_idle {l : Latch} (k : Stage) (s : State) (h : l.valid = false ∨ l.stall = true) :
    stageStep k l s = .next s := by
  unfold stageStep
  rcases h with h | h <;> simp [h]

/-- A latch is live, or its stage does nothing. -/
theorem Latch.live_or_idle (l : Latch) :
    (l.valid = true ∧ l.stall = false) ∨ (l.valid = false ∨ l.stall = true) := by
  cases l.valid <;> cases l.stall <;> simp

/-- The writeback sub-step of a live WB: the register of a writer, the count, and the halt of a HALT (R131 to R135). -/
theorem writebackStep_live {s t : State} (hv : s.wb.valid = true) (hs : s.wb.stall = false)
    (h : writebackStep s = .next t) :
    t = { s with
      regs := if isWriter s.wb.op then s.regs.set s.wb.rd.toNat s.wb.resultBuffer else s.regs
      completed := s.completed + 1
      wb := { s.wb with valid := false }
      seq := { stage := .writeback, haltSeen := s.wb.op == .halt || s.seq.haltSeen } } := by
  rw [writebackStep, stageStep_live _ _ hv hs, exec_writeback _ rfl, Latch.instr_op] at h
  split at h
  case isTrue hw =>
    obtain ⟨_, rfl⟩ := writebackReg_next h
    have hne : s.wb.op ≠ .halt := by
      intro ho
      simp [ho, isWriter] at hw
    simp [retire, atStage, hw, hne, Latch.instr_rd hw]
  case isFalse hw =>
    split at h
    case isTrue ho =>
      cases h
      simp [retire, signalHalt, atStage, ho, isWriter]
    case isFalse ho =>
      cases h
      simp [retire, atStage, hw, ho]

/-- The writeback sub-step never faults. -/
theorem writebackStep_ne_fault (s : State) (x : Fault) : writebackStep s ≠ .fault x := by
  intro h
  rcases s.wb.live_or_idle with ⟨hv, hs⟩ | hi
  · rw [writebackStep, stageStep_live _ _ hv hs, exec_writeback _ rfl] at h
    unfold writebackReg at h
    split at h
    · split at h <;> cases h
    · split at h <;> cases h
  · cases (stageStep_idle .writeback s hi).symm.trans h

/-- The writeback sub-step changes only the registers, the count, WB and the sequencer. -/
theorem writebackStep_frame {s t : State} (h : writebackStep s = .next t) :
    ∃ regs completed wb seq, t = { s with regs := regs, completed := completed, wb := wb, seq := seq } := by
  rcases s.wb.live_or_idle with ⟨hv, hs⟩ | hi
  · exact ⟨_, _, _, _, writebackStep_live hv hs h⟩
  · cases (stageStep_idle .writeback s hi).symm.trans h
    exact ⟨_, _, _, _, rfl⟩

/-- The memory sub-step of a live M: LOAD takes the addressed word, STORE writes it, every other instruction only moves
to WB (R126 to R130). -/
theorem memoryStep_live {s t : State} (hv : s.m.valid = true) (hs : s.m.stall = false) (h : memoryStep s = .next t) :
    (s.m.op = .load ∧ dataInRange s.cfg s.m.memoryAddress = true ∧
      t = memoryHandOff (atStage .memory
        { s with m := { s.m with resultBuffer := s.dm.read (s32 s.m.memoryAddress).toNat } })) ∨
    (s.m.op = .store ∧ dataInRange s.cfg s.m.memoryAddress = true ∧
      t = memoryHandOff (atStage .memory
        { s with dm := s.dm.write (s32 s.m.memoryAddress).toNat s.m.resultBuffer })) ∨
    (s.m.op ≠ .load ∧ s.m.op ≠ .store ∧ t = memoryHandOff (atStage .memory s)) := by
  rw [memoryStep, stageStep_live _ _ hv hs, exec_memory _ rfl, Latch.instr_op] at h
  split at h
  case isTrue ho => exact .inl ⟨ho, memoryLoad_next h⟩
  case isFalse hl =>
    split at h
    case isTrue ho => exact .inr (.inl ⟨ho, memoryStore_next h⟩)
    case isFalse ho =>
      cases h
      exact .inr (.inr ⟨hl, ho, rfl⟩)

/-- The memory sub-step faults only for a LOAD or a STORE out of range in a live M, with its record (R250). -/
theorem memoryStep_fault {s : State} {x : Fault} (h : memoryStep s = .fault x) :
    (s.m.valid = true ∧ s.m.stall = false) ∧ (s.m.op = .load ∨ s.m.op = .store) ∧
      dataInRange s.cfg s.m.memoryAddress = false ∧ x = .dataOutOfRange s.m.pc s.m.op s.m.memoryAddress := by
  rcases s.m.live_or_idle with ⟨hv, hs⟩ | hi
  · rw [memoryStep, stageStep_live _ _ hv hs, exec_memory _ rfl, Latch.instr_op] at h
    refine ⟨⟨hv, hs⟩, ?_⟩
    split at h
    case isTrue ho => exact ⟨.inl ho, memoryLoad_fault (s := atStage .memory s) h⟩
    case isFalse =>
      split at h
      case isTrue ho => exact ⟨.inr ho, memoryStore_fault (s := atStage .memory s) h⟩
      case isFalse => cases h
  · cases (stageStep_idle .memory s hi).symm.trans h

/-- The memory sub-step changes only data memory, M, WB and the sequencer. -/
theorem memoryStep_frame {s t : State} (h : memoryStep s = .next t) :
    ∃ dm m wb seq, t = { s with dm := dm, m := m, wb := wb, seq := seq } := by
  rcases s.m.live_or_idle with ⟨hv, hs⟩ | hi
  · rcases memoryStep_live hv hs h with ⟨_, _, rfl⟩ | ⟨_, _, rfl⟩ | ⟨_, _, rfl⟩ <;> exact ⟨_, _, _, _, rfl⟩
  · cases (stageStep_idle .memory s hi).symm.trans h
    exact ⟨_, _, _, _, rfl⟩

/-- The execute sub-step of a live E: the instruction's arm, then the hand-off (R122 to R125). -/
theorem executeStep_live {s : State} (hv : s.e.valid = true) (hs : s.e.stall = false) :
    executeStep s = .next (executeHandOff (executeArm s.e.instr (atStage .execute s))) := by
  rw [executeStep, stageStep_live _ _ hv hs, exec_execute _ rfl]

/-- The execute sub-step changes only the flags, what a redirect writes, E, M and the sequencer. -/
theorem executeStep_frame {s t : State} (h : executeStep s = .next t) :
    ∃ z n p pc pending f d e m seq, t =
      { s with z := z, n := n, p := p, pc := pc, redirectPending := pending, f := f, d := d, e := e, m := m, seq := seq } := by
  rcases s.e.live_or_idle with ⟨hv, hs⟩ | hi
  · rw [executeStep_live hv hs] at h
    cases h
    obtain ⟨z, n, p, v, a, hr⟩ := executeResult_frame s.e.instr (atStage .execute s)
    rw [executeArm, hr]
    split <;> exact ⟨_, _, _, _, _, _, _, _, _, _, rfl⟩
  · cases (stageStep_idle .execute s hi).symm.trans h
    exact ⟨_, _, _, _, _, _, _, _, _, _, rfl⟩

/-- The decode sub-step of a live D: the operands it reads are the forwarding mux's, then the hand-off (R115 to R118). -/
theorem decodeStep_live {s t : State} (hv : s.d.valid = true) (hs : s.d.stall = false) (h : decodeStep s = .next t) :
    ∃ x y, t = decodeHandOff (atStage .decode { s with d := { s.d with rs1Value := x, rs2Value := y } }) ∧
      (readsRs1 s.d.op = true → fwd s s.d.rs1 = some x) ∧ (readsRs2 s.d.op = true → fwd s s.d.rs2 = some y) := by
  rw [decodeStep, stageStep_live _ _ hv hs, exec_decode _ rfl, Latch.instr_op] at h
  split at h
  case isTrue h2 =>
    have h1 := readsRs1_of_readsRs2 h2
    obtain ⟨x, y, hx, hy, rfl⟩ := decodeBoth_next h
    rw [Latch.instr_rs1 h1] at hx
    rw [Latch.instr_rs2 h2] at hy
    exact ⟨x, y, rfl, fun _ => hx, fun _ => hy⟩
  case isFalse h2 =>
    split at h
    case isTrue h1 =>
      obtain ⟨x, hx, rfl⟩ := decodeFirst_next h
      rw [Latch.instr_rs1 h1] at hx
      exact ⟨x, s.d.rs2Value, rfl, fun _ => hx, fun h => absurd h h2⟩
    case isFalse h1 =>
      cases h
      exact ⟨s.d.rs1Value, s.d.rs2Value, rfl, fun h => absurd h h1, fun h => absurd h h2⟩

/-- The decode sub-step changes only D, E and the sequencer. -/
theorem decodeStep_frame {s t : State} (h : decodeStep s = .next t) :
    ∃ d e seq, t = { s with d := d, e := e, seq := seq } := by
  rcases s.d.live_or_idle with ⟨hv, hs⟩ | hi
  · obtain ⟨x, y, rfl, _⟩ := decodeStep_live hv hs h
    exact ⟨_, _, _, rfl⟩
  · cases (stageStep_idle .decode s hi).symm.trans h
    exact ⟨_, _, _, rfl⟩

/-- The fetch part changes only pc, F and D. -/
theorem fetchPart_frame (i : Instr) (s : State) :
    ∃ f d, fetchPart i s = { s with pc := nextPc s.cfg s.pc, f := f, d := d } := by
  unfold fetchPart
  split <;> exact ⟨_, _, rfl⟩

/-- The read of the fetch sub-step: pc advances by W, and else only F, D and the sequencer change (R110, R111). -/
theorem fetchRead_frame {s t : State} (h : fetchRead s = .next t) :
    ∃ f d seq, t = { s with pc := nextPc s.cfg s.pc, f := f, d := d, seq := seq } := by
  obtain ⟨r, _, he⟩ := fetchRead_next h
  rw [exec_fetch _ rfl] at he
  cases he
  obtain ⟨f, d, hp⟩ := fetchPart_frame r.instr (atStage .fetch (latchFetched r s))
  exact ⟨_, _, _, hp⟩

/-- The fetch sub-step changes only pc, the refetch delay, F, D and the sequencer. -/
theorem fetchStep_frame {s t : State} (h : fetchStep s = .next t) :
    ∃ pc pending f d seq, t = { s with pc := pc, redirectPending := pending, f := f, d := d, seq := seq } := by
  rcases fetchStep_next h with ⟨_, rfl⟩ | ⟨_, _, rfl⟩ | ⟨_, _, _, rfl⟩ | ⟨_, _, _, u, hb, hr⟩
  · exact ⟨_, _, _, _, _, rfl⟩
  · exact ⟨_, _, _, _, _, rfl⟩
  · exact ⟨_, _, _, _, _, rfl⟩
  · obtain ⟨pc, rfl⟩ := btbPredictStep_next hb
    obtain ⟨f, d, seq, rfl⟩ := fetchRead_frame hr
    exact ⟨_, _, _, _, _, rfl⟩

/-- Where no BTB entry has a tag, the prediction step does nothing (R142, R145). -/
theorem btbPredictStep_of_no_tag {s : State} (h : ∀ x ∈ s.btb, x.tag = none) : btbPredictStep s = .next s := by
  have hl : btbLookup s.btb s.pc = none := by
    refine List.findIdx?_eq_none_iff.2 fun x hx => ?_
    simp [h x hx]
  unfold btbPredictStep
  split
  · rfl
  · simp [hl]

/-- The BTB of a block has no tag (R144). -/
theorem State.Inv.no_tag {s : State} (h : s.Inv) : ∀ x ∈ s.btb, x.tag = none := by
  intro x hx
  rw [h.btbCold] at hx
  rw [List.eq_of_mem_replicate hx]
  rfl

/-- The execute sub-step never faults. -/
theorem executeStep_ne_fault (s : State) (x : Fault) : executeStep s ≠ .fault x := by
  intro h
  rcases s.e.live_or_idle with ⟨hv, hs⟩ | hi
  · cases (executeStep_live hv hs).symm.trans h
  · cases (stageStep_idle .execute s hi).symm.trans h

/-- The decode sub-step never faults. -/
theorem decodeStep_ne_fault (s : State) (x : Fault) : decodeStep s ≠ .fault x := by
  intro h
  rcases s.d.live_or_idle with ⟨hv, hs⟩ | hi
  · rw [decodeStep, stageStep_live _ _ hv hs, exec_decode _ rfl] at h
    unfold decodeBoth decodeFirst decodeNone at h
    repeat' split at h
    all_goals cases h
  · cases (stageStep_idle .decode s hi).symm.trans h

/-! ### Everything a step of a running block can do -/

/-- What the cycle from `s` to `t` did: it stopped on a data fault, it stopped on a fetch fault, or it ran its five
sub-steps to the end (R100, 60_exceptions.md R250, R252). -/
inductive CycleRun (s t : State) : Prop where
  | dataFault {a : State} {x : Fault} (hw : writebackStep s = .next a) (hm : memoryStep a = .fault x)
      (ht : t = stopFaulted x a)
  | fetchFault {a b c d : State} {x : Fault} (hw : writebackStep s = .next a) (hm : memoryStep a = .next b)
      (he : executeStep b = .next c) (hd : decodeStep c = .next d) (hf : fetchStep d = .fault x)
      (ht : t = stopFaulted x d)
  | completes {a b c d u : State} (hw : writebackStep s = .next a) (hm : memoryStep a = .next b)
      (he : executeStep b = .next c) (hd : decodeStep c = .next d) (hf : fetchStep d = .next u)
      (ht : t = endCycle (hazardCheck u))

/-- A step of a running block is a cycle (R262). -/
theorem cycle_of_step {s t : State} (hr : s.status = .running) (h : step s = .next t) : cycle s = .next t := by
  rcases step_next h with ⟨_, _, hc⟩ | ⟨hn, _⟩
  · exact hc
  · exact absurd hr hn

/-- A step of a running block is a `CycleRun`: no other sub-step than memory and fetch faults. -/
theorem step_cycleRun {s t : State} (hr : s.status = .running) (h : step s = .next t) : CycleRun s t := by
  obtain ⟨a, hw, h1⟩ | ⟨x, hx, _⟩ := runSubSteps_next (cycle_of_step hr h)
  case inr => exact absurd hx (writebackStep_ne_fault s x)
  obtain ⟨b, hm, h2⟩ | ⟨x, hx, ht⟩ := runSubSteps_next h1
  case inr => exact .dataFault hw hx ht
  obtain ⟨c, he, h3⟩ | ⟨x, hx, _⟩ := runSubSteps_next h2
  case inr => exact absurd hx (executeStep_ne_fault b x)
  obtain ⟨d, hd, h4⟩ | ⟨x, hx, _⟩ := runSubSteps_next h3
  case inr => exact absurd hx (decodeStep_ne_fault c x)
  obtain ⟨u, hf, h5⟩ | ⟨x, hx, ht⟩ := runSubSteps_next h4
  case inr => exact .fetchFault hw hm he hd hx ht
  cases h5
  exact .completes hw hm he hd hf rfl

/-- A fault's stop is seen at the output `faulted`. -/
theorem faulted_stopFaulted (x : Fault) (s : State) : faulted (stopFaulted x s) ≠ none := by
  simp [faulted]

/-- The end of a running block's cycle is no fault. -/
theorem faulted_endCycle {s : State} (h : s.status = .running) : faulted (endCycle s) = none := by
  cases hs : s.seq.haltSeen <;> simp [faulted, hs, h]

/-- No sub-step changes the parameters, code memory, the BTB, the clock or the status. -/
theorem subStep_keeps {k : Stage} {s t : State} (h : subStep k s = .next t) :
    t.cfg = s.cfg ∧ t.code = s.code ∧ t.btb = s.btb ∧ t.clock = s.clock ∧ t.status = s.status := by
  cases k with
  | writeback =>
    obtain ⟨_, _, _, _, rfl⟩ := writebackStep_frame h
    exact ⟨rfl, rfl, rfl, rfl, rfl⟩
  | memory =>
    obtain ⟨_, _, _, _, rfl⟩ := memoryStep_frame h
    exact ⟨rfl, rfl, rfl, rfl, rfl⟩
  | execute =>
    obtain ⟨_, _, _, _, _, _, _, _, _, _, rfl⟩ := executeStep_frame h
    exact ⟨rfl, rfl, rfl, rfl, rfl⟩
  | decode =>
    obtain ⟨_, _, _, rfl⟩ := decodeStep_frame h
    exact ⟨rfl, rfl, rfl, rfl, rfl⟩
  | fetch =>
    obtain ⟨_, _, _, _, _, rfl⟩ := fetchStep_frame h
    exact ⟨rfl, rfl, rfl, rfl, rfl⟩

/-- A cycle that completes is not faulted and is counted; a faulting one is faulted and is not (R101, R252). -/
theorem runSubSteps_clock {ks : List Stage} {s t : State} (hr : s.status = .running) (h : runSubSteps ks s = .next t) :
    (faulted t = none ∧ t.clock = s.clock + 1) ∨ (faulted t ≠ none ∧ t.clock = s.clock) := by
  induction ks generalizing s with
  | nil =>
    cases h
    exact .inl ⟨faulted_endCycle hr, rfl⟩
  | cons k ks ih =>
    rcases runSubSteps_next h with ⟨u, hu, hrest⟩ | ⟨x, _, rfl⟩
    · obtain ⟨_, _, _, hclock, hstatus⟩ := subStep_keeps hu
      rw [← hclock]
      exact ih (hstatus.trans hr) hrest
    · exact .inr ⟨faulted_stopFaulted x s, rfl⟩

/-- From the execute sub-step on, a cycle changes only the fetch side, D and E, and how the cycle ends; a data fault stops
it before. -/
theorem CycleRun.after_execute {s t : State} (h : CycleRun s t) :
    ∃ a, writebackStep s = .next a ∧
      ((∃ x, memoryStep a = .fault x ∧ t = stopFaulted x a) ∨
        ∃ b c, memoryStep a = .next b ∧ executeStep b = .next c ∧
          ∃ pc pending f d e clock status seq, t =
            { c with pc := pc, redirectPending := pending, f := f, d := d, e := e, clock := clock, status := status,
                     seq := seq }) := by
  cases h with
  | dataFault hw hm ht => exact ⟨_, hw, .inl ⟨_, hm, ht⟩⟩
  | fetchFault hw hm he hd hf ht =>
    obtain ⟨_, _, _, rfl⟩ := decodeStep_frame hd
    exact ⟨_, hw, .inr ⟨_, _, hm, he, _, _, _, _, _, _, _, _, ht⟩⟩
  | completes hw hm he hd hf ht =>
    obtain ⟨_, _, _, rfl⟩ := decodeStep_frame hd
    obtain ⟨_, _, _, _, _, rfl⟩ := fetchStep_frame hf
    exact ⟨_, hw, .inr ⟨_, _, hm, he, _, _, _, _, _, _, _, _, ht⟩⟩

/-- What the execute sub-step finds: everything as the cycle found it, but what writeback and memory change. -/
theorem memoryStep_after_writeback_frame {s a b : State} (hw : writebackStep s = .next a) (hm : memoryStep a = .next b) :
    ∃ regs completed dm m wb seq, b =
      { s with regs := regs, completed := completed, dm := dm, m := m, wb := wb, seq := seq } := by
  obtain ⟨_, _, _, _, rfl⟩ := writebackStep_frame hw
  obtain ⟨_, _, _, _, rfl⟩ := memoryStep_frame hm
  exact ⟨_, _, _, _, _, _, rfl⟩

/-- A cycle without a fault runs its five sub-steps to the end. -/
theorem cleanCycle_subSteps {s t : State} (h : Claims.cleanCycle s t) :
    ∃ a b c d u, writebackStep s = .next a ∧ memoryStep a = .next b ∧ executeStep b = .next c ∧
      decodeStep c = .next d ∧ fetchStep d = .next u ∧ t = endCycle (hazardCheck u) := by
  obtain ⟨hr, hstep, hclean⟩ := h
  cases step_cycleRun hr hstep with
  | dataFault hw hm ht => exact absurd (ht ▸ hclean) (faulted_stopFaulted _ _)
  | fetchFault hw hm he hd hf ht => exact absurd (ht ▸ hclean) (faulted_stopFaulted _ _)
  | completes hw hm he hd hf ht => exact ⟨_, _, _, _, _, hw, hm, he, hd, hf, ht⟩

/-! ### Data memory -/

/-- An address below every listed one reads as 0. -/
theorem read_of_lt : ∀ (m : Memory) {lo a : Nat}, m.wfAbove lo = true → a < lo → m.read a = 0
  | [], _, _, _, _ => rfl
  | (k, v) :: rest, lo, a, hm, ha => by
    simp only [Memory.wfAbove, Bool.and_eq_true, decide_eq_true_eq] at hm
    obtain ⟨⟨hk, _⟩, hrest⟩ := hm
    have hne : a ≠ k := by omega
    rw [Memory.read, if_neg hne]
    exact read_of_lt rest hrest (by omega)

/-- A write to a memory in the form above `lo`, read back at every address. -/
theorem read_write_above : ∀ (m : Memory) {lo : Nat} (a : Nat) (v : Word) (b : Nat), m.wfAbove lo = true →
    (m.write a v).read b = if b = a then v else m.read b
  | [], _, a, v, b, _ => by
    by_cases hv : v = 0#32 <;> simp [Memory.write, Memory.read, hv]
  | (k, w) :: rest, lo, a, v, b, hm => by
    simp only [Memory.wfAbove, Bool.and_eq_true, decide_eq_true_eq] at hm
    obtain ⟨_, hrest⟩ := hm
    have above : ∀ c, c ≤ k → Memory.read rest c = 0 := fun c hc => read_of_lt rest hrest (by omega)
    rcases lt_trichotomy a k with hlt | rfl | hgt
    · by_cases hv : v = 0#32
      · have hne : a ≠ k := by omega
        by_cases hb : b = a <;> simp [Memory.write, Memory.read, hlt, hv, hb, hne, above a (by omega)]
      · simp [Memory.write, Memory.read, hlt, hv]
    · by_cases hv : v = 0#32 <;> by_cases hb : b = a <;> simp [Memory.write, Memory.read, hv, hb, above a (by omega)]
    · have hne : a ≠ k := by omega
      have hle : ¬a < k := by omega
      have ih := read_write_above rest a v b hrest
      by_cases hb : b = k
      · simp [Memory.write, Memory.read, hle, hne, hb, hne.symm]
      · simp [Memory.write, Memory.read, hle, hne, hb, ih]

/-- A write to a memory in canonical form changes exactly the addressed word (20_memory.md R65). -/
theorem read_write {m : Memory} (h : m.wf = true) (a : Nat) (v : Word) (b : Nat) :
    (m.write a v).read b = if b = a then v else m.read b :=
  read_write_above m a v b h

/-- The words placed from address `a` on read back in their order, and as 0 past their end. -/
theorem read_ofWords : ∀ (ws : List Word) (a k : Nat), (Memory.ofWords ws a).read (a + k) = ws.getD k 0
  | [], _, _ => rfl
  | w :: ws, a, 0 => by
    by_cases hw : w = 0#32
    · simp [Memory.ofWords, hw, read_of_lt _ (ofWords_wfAbove ws (a + 1)) (Nat.lt_succ_self a)]
    · simp [Memory.ofWords, Memory.read, hw]
  | w :: ws, a, k + 1 => by
    have ih := read_ofWords ws (a + 1) k
    rw [Nat.add_assoc, Nat.add_comm 1 k] at ih
    by_cases hw : w = 0#32 <;> simp [Memory.ofWords, Memory.read, hw] <;> simpa using ih

/-- The addresses of the words placed from address `a` on. -/
theorem mem_ofWords : ∀ {ws : List Word} {a : Nat} {x : Nat × Word}, x ∈ Memory.ofWords ws a → x.1 < a + ws.length
  | [], _, _, h => by cases h
  | w :: ws, a, x, h => by
    have later : x ∈ Memory.ofWords ws (a + 1) → x.1 < a + (w :: ws).length := by
      intro hx
      have := mem_ofWords hx
      rw [List.length_cons]
      omega
    unfold Memory.ofWords at h
    split at h
    · exact later h
    · rcases List.mem_cons.1 h with rfl | hx
      · simp
      · exact later hx

/-- Reset gives data word `a` its launch value (10_state.md R38, R46). -/
theorem resetWith_dm_read (cfg : Config) (code : List Record) (rInit dmInit : List Word) {a : Nat}
    (h : a < cfg.dataWords) : (State.resetWith cfg code rInit dmInit).dm.read a = dmInit.getD a 0 := by
  have hr := read_ofWords (dmInit.take cfg.dataWords) 0 a
  rw [Nat.zero_add] at hr
  calc (State.resetWith cfg code rInit dmInit).dm.read a
      = (dmInit.take cfg.dataWords).getD a 0 := hr
    _ = dmInit.getD a 0 := by simp [List.getD_eq_getElem?_getD, h]

/-- Reset gives register `k` its launch value (10_state.md R23, R46). -/
theorem resetWith_regs (cfg : Config) (code : List Record) (rInit dmInit : List Word) {k : Nat}
    (h : k < cfg.numRegs) : (State.resetWith cfg code rInit dmInit).regs[k]? = some (rInit.getD k 0) := by
  simp [State.resetWith, h]

/-- A reset block with legal parameters and legal code satisfies the invariant (R46, R146 to R151). -/
theorem resetWith_inv {cfg : Config} {code : List Record} (rInit dmInit : List Word) (hcfg : cfg.wf = true)
    (hfits : cfg.fits code.length = true) (hcode : ∀ r ∈ code, r.instr.wf cfg.numRegs = true) :
    (State.resetWith cfg code rInit dmInit).Inv where
  cfgLegal := hcfg
  codeFits := hfits
  codeLegal := hcode
  regCount := by simp [State.resetWith]
  dmForm := resetWith_dm_wf cfg code rInit dmInit
  dmRange := by
    intro x hx
    have hlt := mem_ofWords (a := 0) hx
    rw [List.length_take] at hlt
    show x.1 < cfg.dataWords
    omega
  btbCold := rfl
  noStallE := rfl
  noStallM := rfl
  noStallWb := rfl
  stallPair := rfl
  stallIsHazard := rfl
  pendingEnabled := nofun
  legalD := nofun
  legalE := nofun
  legalM := nofun
  legalWb := nofun
  haltD := nofun
  haltE := nofun
  haltM := nofun
  haltWb := nofun
  seqRests := rfl

/-! ### The statements -/

/-- Settles O38, from what every sub-step keeps, by induction on the sub-steps. -/
theorem clockCountsCompletedCycles : Obligations.ClockCountsCompletedCycles := by
  intro s t hr h
  rcases runSubSteps_clock hr (cycle_of_step hr h) with ⟨hf, hclock⟩ | ⟨hf, hclock⟩
  · exact ⟨fun _ => hclock, fun hn => absurd hf hn⟩
  · exact ⟨fun hn => absurd hn hf, fun _ => hclock⟩

/-- The registers and the count after a cycle are those its writeback sub-step leaves (R131 to R133). -/
theorem CycleRun.regs {s t : State} (h : CycleRun s t) :
    ∃ a, writebackStep s = .next a ∧ t.regs = a.regs ∧ t.completed = a.completed := by
  obtain ⟨a, hw, ⟨x, _, rfl⟩ | ⟨b, c, hm, he, _, _, _, _, _, _, _, _, rfl⟩⟩ := h.after_execute
  · exact ⟨a, hw, rfl, rfl⟩
  · obtain ⟨_, _, _, _, rfl⟩ := memoryStep_frame hm
    obtain ⟨_, _, _, _, _, _, _, _, _, _, rfl⟩ := executeStep_frame he
    exact ⟨a, hw, rfl, rfl⟩

/-- Settles O39: only the writeback sub-step reaches the registers and the count. -/
theorem onlyWritebackWritesRegisters : Obligations.OnlyWritebackWritesRegisters := by
  intro s t hr h
  obtain ⟨a, hw, hregs, hcompleted⟩ := (step_cycleRun hr h).regs
  rw [hregs, hcompleted]
  constructor
  · intro hv hs
    rw [writebackStep_live hv hs hw]
    exact ⟨rfl, rfl⟩
  · intro hi
    cases (stageStep_idle .writeback s hi).symm.trans hw
    exact ⟨rfl, rfl⟩

/-- The latch M holds a STORE that the memory sub-step runs, with its address in range (R128). -/
def storesFromM (s : State) : Prop :=
  s.m.valid = true ∧ s.m.stall = false ∧ s.m.op = .store ∧ dataInRange s.cfg s.m.memoryAddress = true

/-- The memory sub-step writes the addressed word for a STORE in range, and else leaves data memory (R127 to R129). -/
theorem memoryStep_dm {s t : State} (h : memoryStep s = .next t) :
    (storesFromM s ∧ t.dm = s.dm.write (s32 s.m.memoryAddress).toNat s.m.resultBuffer) ∨
      (¬storesFromM s ∧ t.dm = s.dm) := by
  rcases s.m.live_or_idle with ⟨hv, hs⟩ | hi
  · obtain ⟨hl, _, rfl⟩ | ⟨ho, hin, rfl⟩ | ⟨_, hn, rfl⟩ := memoryStep_live hv hs h
    · exact .inr ⟨fun ⟨_, _, ho, _⟩ => (by cases hl.symm.trans ho), rfl⟩
    · exact .inl ⟨⟨hv, hs, ho, hin⟩, rfl⟩
    · exact .inr ⟨fun ⟨_, _, ho, _⟩ => hn ho, rfl⟩
  · cases (stageStep_idle .memory s hi).symm.trans h
    refine .inr ⟨fun ⟨hv, hs, _⟩ => ?_, rfl⟩
    rcases hi with hi | hi
    · cases hv.symm.trans hi
    · cases hs.symm.trans hi

/-- A cycle writes data memory for the STORE in range that it found in M, and for nothing else: a data fault is out of
range (R65), and no other sub-step reaches data memory. -/
theorem CycleRun.dm {s t : State} (h : CycleRun s t) :
    (storesFromM s ∧ t.dm = s.dm.write (s32 s.m.memoryAddress).toNat s.m.resultBuffer) ∨
      (¬storesFromM s ∧ t.dm = s.dm) := by
  obtain ⟨a, hw, ⟨x, hx, rfl⟩ | ⟨b, c, hm, he, _, _, _, _, _, _, _, _, rfl⟩⟩ := h.after_execute
  · obtain ⟨_, _, hout, _⟩ := memoryStep_fault hx
    obtain ⟨_, _, _, _, rfl⟩ := writebackStep_frame hw
    exact .inr ⟨fun ⟨_, _, _, hin⟩ => (by cases hin.symm.trans hout), rfl⟩
  · obtain ⟨_, _, _, _, rfl⟩ := writebackStep_frame hw
    obtain ⟨_, _, _, _, _, _, _, _, _, _, rfl⟩ := executeStep_frame he
    have hdm := memoryStep_dm hm
    exact hdm

/-- Settles O40: data memory after the cycle, read back word by word. -/
theorem onlyAStoreInMWritesMemory : Obligations.OnlyAStoreInMWritesMemory := by
  intro s t hr hwf h storing
  have hiff : storesFromM s ↔ storing :=
    and_congr_right fun _ => and_congr_right fun _ => and_congr_right fun _ => decide_eq_true_iff
  rw [← hiff]
  obtain ⟨hst, ht⟩ | ⟨hst, ht⟩ := (step_cycleRun hr h).dm
  · refine ⟨fun _ => ⟨?_, fun a ha => ?_⟩, fun hn => absurd hst hn⟩
    · rw [ht, read_write hwf, if_pos rfl]
    · rw [ht, read_write hwf, if_neg ha]
  · exact ⟨fun hs => absurd hs hst, fun _ => ht⟩

/-- The flags after a cycle are those its execute sub-step leaves, which sees E and the flags as the cycle found them; a
data fault leaves them as they were (R26, R27). -/
theorem CycleRun.flags {s t : State} (h : CycleRun s t) :
    (t.z = s.z ∧ t.n = s.n ∧ t.p = s.p) ∨
      ∃ b c : State, b.e = s.e ∧ (b.z = s.z ∧ b.n = s.n ∧ b.p = s.p) ∧ executeStep b = .next c ∧
        t.z = c.z ∧ t.n = c.n ∧ t.p = c.p := by
  obtain ⟨a, hw, hrest⟩ := h.after_execute
  obtain ⟨x, _, rfl⟩ | ⟨b, c, hm, he, _, _, _, _, _, _, _, _, rfl⟩ := hrest
  · obtain ⟨_, _, _, _, rfl⟩ := writebackStep_frame hw
    exact .inl ⟨rfl, rfl, rfl⟩
  · obtain ⟨_, _, _, _, _, _, hb⟩ := memoryStep_after_writeback_frame hw hm
    exact .inr ⟨b, c, by rw [hb], ⟨by rw [hb], by rw [hb], by rw [hb]⟩, he, rfl, rfl, rfl⟩

/-- A redirect writes no flag, so the execute arm leaves the flags of its result. -/
theorem executeArm_flags (i : Instr) (s : State) :
    (executeArm i s).z = (executeResult i s).z ∧ (executeArm i s).n = (executeResult i s).n ∧
      (executeArm i s).p = (executeResult i s).p := by
  unfold executeArm
  split <;> exact ⟨rfl, rfl, rfl⟩

/-- Settles O41: the flags are the execute arm's, and only the named mnemonics write them. -/
theorem onlyExecuteWritesFlags : Obligations.OnlyExecuteWritesFlags := by
  intro s t hr h
  obtain ⟨hz, hn, hp⟩ | ⟨b, c, hbe, ⟨hbz, hbn, hbp⟩, he, hz, hn, hp⟩ := (step_cycleRun hr h).flags
  · exact ⟨fun _ => hz, fun _ => ⟨hn, hp⟩⟩
  rw [← hbe, hz, hn, hp, ← hbz, ← hbn, ← hbp]
  rcases b.e.live_or_idle with ⟨hv, hs⟩ | hi
  · rw [executeStep_live hv hs] at he
    cases he
    obtain ⟨haz, han, hap⟩ := executeArm_flags b.e.instr (atStage .execute b)
    rw [executeHandOff_z, executeHandOff_n, executeHandOff_p, haz, han, hap]
    constructor
    · intro hno
      exact executeResult_z _ fun ho => hno ⟨hv, hs, by rwa [Latch.instr_op] at ho⟩
    · intro hno
      exact executeResult_n_p _ fun ho => hno ⟨hv, hs, by rwa [Latch.instr_op] at ho⟩
  · cases (stageStep_idle .execute b hi).symm.trans he
    exact ⟨fun _ => rfl, fun _ => ⟨rfl, rfl⟩⟩

/-- What the execute sub-step does to the fetch side: the redirect of a transfer in E, and nothing otherwise (R124). -/
theorem executeStep_steers {s t : State} (hs : s.e.stall = false) (h : executeStep s = .next t) :
    (eTransfers s = true ∧ t.pc = transferTarget s.e.instr s.e.pc s.e.rs1Value ∧ t.redirectPending = true ∧
      t.f = { s.f with valid := true }) ∨
    (eTransfers s = false ∧ t.pc = s.pc ∧ t.redirectPending = s.redirectPending ∧ t.f = s.f) := by
  cases hv : s.e.valid with
  | false =>
    cases (stageStep_idle .execute s (.inl hv)).symm.trans h
    exact .inr ⟨by simp [eTransfers, hv], rfl, rfl, rfl⟩
  | true =>
    rw [executeStep_live hv hs] at h
    cases h
    obtain ⟨z, n, p, v, a, hr⟩ := executeResult_frame s.e.instr (atStage .execute s)
    rw [executeArm, hr]
    cases ht : transfers s.e.instr s.z s.n s.p with
    | true => exact .inl ⟨by simp [eTransfers, hv, ht], by simp [ht], by simp [ht], by simp [ht]⟩
    | false => exact .inr ⟨by simp [eTransfers, ht], by simp [ht], by simp [ht], by simp [ht]⟩

/-- With a BTB that holds no tag, the fetch sub-step moves pc by W exactly when it reads (R106 to R111). -/
theorem fetchStep_pc {s t : State} (hbtb : ∀ x ∈ s.btb, x.tag = none) (h : fetchStep s = .next t) :
    t.pc = if s.f.valid = true ∧ s.f.stall = false ∧ s.redirectPending = false then nextPc s.cfg s.pc else s.pc := by
  rcases fetchStep_next h with ⟨hs, rfl⟩ | ⟨_, hv, rfl⟩ | ⟨_, _, hp, rfl⟩ | ⟨hs, hv, hp, u, hb, hread⟩
  · simp [hs]
  · simp [hv]
  · simp [hp]
  · cases (btbPredictStep_of_no_tag hbtb).symm.trans hb
    obtain ⟨_, _, _, rfl⟩ := fetchRead_frame hread
    simp [hv, hs, hp]

/-- Settles O42: pc is moved by the redirect of E, which holds the fetch back, or else by the fetch. -/
theorem fetchPointerMovesOnlyByFetchOrTransfer : Obligations.FetchPointerMovesOnlyByFetchOrTransfer := by
  intro s t hinv hclean
  refine ⟨btbPredictStep_of_no_tag hinv.no_tag, ?_⟩
  obtain ⟨a, b, c, d, u, hw, hm, he, hd, hf, rfl⟩ := cleanCycle_subSteps hclean
  obtain ⟨_, _, _, _, _, _, rfl⟩ := memoryStep_after_writeback_frame hw hm
  have steers := executeStep_steers (by exact hinv.noStallE) he
  obtain ⟨hcfg, _, hbtb, _, _⟩ := subStep_keeps (k := .execute) he
  obtain ⟨_, _, _, rfl⟩ := decodeStep_frame hd
  have moved := fetchStep_pc (by rw [hbtb]; exact hinv.no_tag) hf
  rcases steers with ⟨ht, hpc, hpending, _⟩ | ⟨ht, hpc, hpending, hfetch⟩
  · have ht : eTransfers s = true := ht
    have hu := moved.trans (if_neg (by simp [hpending]))
    exact ⟨fun _ => hu.trans hpc, by simp [ht], by simp [ht]⟩
  · have ht : eTransfers s = false := ht
    rw [hpc, hpending, hfetch, hcfg] at moved
    exact ⟨by simp [ht], fun _ hv hs hp => moved.trans (if_pos ⟨hv, hs, hp⟩),
      fun _ hidle => moved.trans (if_neg (by rcases hidle with h | h | h <;> simp [h]))⟩

/-- Settles O8, from what reset puts into registers and data memory; the other items are read off. -/
theorem resetGivesEveryStateItem : Obligations.ResetGivesEveryStateItem := by
  intro cfg code rInit dmInit s
  have hregs : s.regs.length = cfg.numRegs := by simp [s, State.resetWith]
  have hbtb : s.btb.length = cfg.btbEntries := List.length_replicate
  have hempty : ∀ x ∈ s.btb, x.tag = none ∧ x.history = 0 ∧ x.target = none := by
    intro x hx
    rw [List.eq_of_mem_replicate hx]
    exact ⟨rfl, rfl, rfl⟩
  exact ⟨rfl, rfl, hregs, fun k hk => resetWith_regs cfg code rInit dmInit hk,
    fun a ha => resetWith_dm_read cfg code rInit dmInit ha, rfl, rfl, rfl, rfl, rfl, rfl, rfl, rfl, rfl, rfl, rfl, rfl,
    hbtb, hempty, rfl⟩

/-- Settles O10: `State.reset` is the reset of the default parameters, which are legal, with no record to check. -/
theorem resetStateSatisfiesInvariant : Obligations.ResetStateSatisfiesInvariant :=
  resetWith_inv [] [] (by decide) (by decide) nofun

/-- Settles O18, by the three ways a run can have ended. -/
theorem endedRunStaysEnded : Obligations.EndedRunStaysEnded := by
  intro s hs
  unfold step quit
  cases hst : s.status with
  | running => exact absurd hst hs
  | halted => exact ⟨rfl, rfl⟩
  | faulted x => exact ⟨rfl, rfl⟩
  | stopped => exact ⟨rfl, rfl⟩

/-- Settles O56: no view but the trace of every item reads `redirectPending`. -/
theorem hostAccessTableHidesRedirectPending : Obligations.HostAccessTableHidesRedirectPending := by
  intro s b
  exact ⟨rfl, rfl, rfl, rfl, rfl, rfl⟩

end Machine
end Sys2Proof

/-!
PROOF. Memory as the spec's 20_memory.md has it: what a data access answers, that the canonical form has one memory for
each contents, where code memory is defined, and that a step leaves code memory, the BTB and the parameters.
-/

namespace Sys2Proof.Machine

/-! ### Data memory -/

/-- The range condition of R64 and R65, as a statement about integers. -/
theorem dataInRange_iff {c : Config} {a : Word} : dataInRange c a = true ↔ 0 ≤ s32 a ∧ s32 a < c.dataWords :=
  decide_eq_true_iff

/-- MemRead in range answers the addressed word (R64). -/
theorem memRead_of_inRange {s : State} {a : Word} (h : dataInRange s.cfg a = true) :
    memRead s a = .ok (s.dm.read (s32 a).toNat) :=
  if_pos h

/-- MemRead out of range is the fault of the instruction in M (R64). -/
theorem memRead_of_outOfRange {s : State} {a : Word} (h : ¬dataInRange s.cfg a = true) :
    memRead s a = .error (.dataOutOfRange s.m.pc s.m.op a) :=
  if_neg h

/-- MemWrite in range writes the addressed word of data memory (R65). -/
theorem memWrite_of_inRange {s : State} {a : Word} (v : Word) (h : dataInRange s.cfg a = true) :
    memWrite s a v = .ok { s with dm := s.dm.write (s32 a).toNat v } :=
  if_pos h

/-- MemWrite out of range is the fault of the instruction in M (R65). -/
theorem memWrite_of_outOfRange {s : State} {a : Word} (v : Word) (h : ¬dataInRange s.cfg a = true) :
    memWrite s a v = .error (.dataOutOfRange s.m.pc s.m.op a) :=
  if_neg h

/-- What the canonical form says of its first entry: the word is not 0, the entry and the rest bound the addresses. -/
theorem wfAbove_cons {lo k : Nat} {v : Word} {rest : Memory} :
    Memory.wfAbove lo ((k, v) :: rest) = true ↔ lo ≤ k ∧ v ≠ 0 ∧ rest.wfAbove (k + 1) = true := by
  simp [Memory.wfAbove, and_assoc]

/-- The first listed address reads as its word. -/
theorem read_head (k : Nat) (v : Word) (rest : Memory) : Memory.read ((k, v) :: rest) k = v :=
  if_pos rfl

/-- Past the first listed address, a memory reads as the rest of its entries. -/
theorem read_tail {k a : Nat} (v : Word) (rest : Memory) (h : a ≠ k) :
    Memory.read ((k, v) :: rest) a = rest.read a :=
  if_neg h

/-- A memory in canonical form lists every address that does not read as 0, so none below its first one. -/
theorem head_le_of_read_ne_zero {m : Memory} {lo a : Nat} (hm : m.wfAbove lo = true) (ha : m.read a ≠ 0) :
    ∃ k v rest, m = (k, v) :: rest ∧ k ≤ a := by
  cases m with
  | nil => exact absurd rfl ha
  | cons x rest =>
    obtain ⟨k, v⟩ := x
    refine ⟨k, v, rest, rfl, Nat.le_of_not_lt fun hlt => ha ?_⟩
    obtain ⟨_, hv, hrest⟩ := wfAbove_cons.1 hm
    exact read_of_lt _ (wfAbove_cons.2 ⟨le_refl k, hv, hrest⟩) hlt

/-- Memories in canonical form that read the same list the same entries: each lists the other's first address, so the
first entries agree, and the rest read the same. -/
theorem eq_of_read_eq : ∀ {m m' : Memory} {lo lo' : Nat}, m.wfAbove lo = true → m'.wfAbove lo' = true →
    (∀ a, m.read a = m'.read a) → m = m'
  | [], [], _, _, _, _, _ => rfl
  | [], (k, v) :: rest, _, _, _, hm', h => by
    obtain ⟨_, hv, _⟩ := wfAbove_cons.1 hm'
    exact absurd ((h k).trans (read_head k v rest)).symm hv
  | (k, v) :: rest, m', lo, lo', hm, hm', h => by
    obtain ⟨_, hv, hrest⟩ := wfAbove_cons.1 hm
    have hk : m'.read k = v := (h k).symm.trans (read_head k v rest)
    obtain ⟨k', v', rest', rfl, hle'⟩ := head_le_of_read_ne_zero hm' (hk ▸ hv)
    obtain ⟨_, hv', hrest'⟩ := wfAbove_cons.1 hm'
    have hk' : Memory.read ((k, v) :: rest) k' = v' := (h k').trans (read_head k' v' rest')
    obtain ⟨_, _, _, heq, hle⟩ := head_le_of_read_ne_zero hm (hk' ▸ hv')
    cases heq
    obtain rfl : k = k' := le_antisymm hle hle'
    obtain rfl : v = v' := (read_head k v rest).symm.trans hk'
    have hread : ∀ a, Memory.read rest a = Memory.read rest' a := by
      intro a
      by_cases ha : a = k
      · rw [read_of_lt rest hrest (by omega), read_of_lt rest' hrest' (by omega)]
      · exact (read_tail v rest ha).symm.trans ((h a).trans (read_tail v rest' ha))
    rw [eq_of_read_eq hrest hrest' hread]

/-! ### Code memory -/

/-- The pc value CODE_BASE + k*W of an existing record `k` meets the three conditions of R61, and they name record
`k` again. -/
theorem codeAt_slot {c : Config} {code : List Record} {p : Word} {k : Nat} (hw : 1 ≤ c.stride) (hk : k < code.length)
    (hp : s32 p = c.codeBase + k * c.stride) : codeAt c code p = code[k]? := by
  have hoff : s32 p - c.codeBase = (k : Int) * c.stride := by omega
  have hlt : (k : Int) * c.stride < code.length * c.stride :=
    Int.mul_lt_mul_of_pos_right (by omega) (by omega)
  have hnn : 0 ≤ (k : Int) * c.stride := by positivity
  have hdiv : (k : Int) * c.stride / c.stride = k := Int.mul_ediv_cancel _ (by omega)
  simp only [codeAt, hoff, hdiv, Int.mul_emod_left, Int.toNat_natCast]
  exact if_pos ⟨hnn, by omega, trivial⟩

/-- `CodeRead` is defined exactly at the pc values CODE_BASE + k*W of the records `k`, and gives record `k` there
(R61). -/
theorem codeAt_eq_some_iff {c : Config} {code : List Record} {p : Word} {r : Record} (hw : 1 ≤ c.stride) :
    codeAt c code p = some r ↔ ∃ k : Nat, code[k]? = some r ∧ s32 p = c.codeBase + k * c.stride := by
  constructor
  · intro h
    simp only [codeAt] at h
    split at h
    case isTrue hdef =>
      obtain ⟨hnn, _, hmod⟩ := hdef
      refine ⟨_, h, ?_⟩
      have hq : 0 ≤ (s32 p - c.codeBase) / c.stride := Int.ediv_nonneg hnn (by omega)
      rw [Int.toNat_of_nonneg hq, Int.ediv_mul_cancel (Int.dvd_of_emod_eq_zero hmod)]
      omega
    case isFalse => cases h
  · rintro ⟨k, hk, hp⟩
    obtain ⟨hlt, _⟩ := List.getElem?_eq_some_iff.1 hk
    rw [codeAt_slot hw hlt hp, hk]

/-- A fetch where `CodeRead` is undefined is the fault FETCH_OUT_OF_RANGE at pc (R61). -/
theorem fetchRead_undefined {s : State} (h : codeRead s s.pc = none) :
    fetchRead s = .fault (.fetchOutOfRange s.pc) := by
  rw [fetchRead, h]

/-- A fetch where `CodeRead` is defined is the fetch part of the record it gives (R110). -/
theorem fetchRead_defined {s : State} {r : Record} (h : codeRead s s.pc = some r) :
    fetchRead s = .next (fetchPart r.instr (atStage .fetch (latchFetched r s))) := by
  rw [fetchRead, h]
  exact exec_fetch _ rfl

/-! ### What a step keeps, and the step of an otherwise empty pipeline -/

/-- However a cycle ends, it leaves code memory, the BTB and the parameters. -/
theorem runSubSteps_keeps {ks : List Stage} {s t : State} (h : runSubSteps ks s = .next t) :
    t.code = s.code ∧ t.btb = s.btb ∧ t.cfg = s.cfg := by
  induction ks generalizing s with
  | nil =>
    cases h
    exact ⟨rfl, rfl, rfl⟩
  | cons k ks ih =>
    rcases runSubSteps_next h with ⟨u, hu, hrest⟩ | ⟨x, _, rfl⟩
    · obtain ⟨hcfg, hcode, hbtb, _, _⟩ := subStep_keeps hu
      rw [← hcode, ← hbtb, ← hcfg]
      exact ih hrest
    · exact ⟨rfl, rfl, rfl⟩

/-- The sub-step that answers a next state hands it to the sub-steps after it (R100). -/
theorem runSubSteps_cons {k : Stage} {rest : List Stage} {s t : State} (h : subStep k s = .next t) :
    runSubSteps (k :: rest) s = runSubSteps rest t := by
  rw [runSubSteps, h]

/-- The fetch sub-step of an enabled, unstalled, undelayed fetch with no BTB tag is the read at pc (R106 to R110). -/
theorem fetchStep_reads {s : State} (hv : s.f.valid = true) (hs : s.f.stall = false) (hp : s.redirectPending = false)
    (hbtb : ∀ x ∈ s.btb, x.tag = none) : fetchStep s = fetchRead s := by
  simp [fetchStep, hv, hs, hp, btbPredictStep_of_no_tag hbtb]

/-- With nothing in the older latches, a cycle is the fetch sub-step, the hazard re-check and the end of the cycle
(R100, R103). -/
theorem step_of_bubbles {s t : State} (hr : s.status = .running) (hcode : s.code ≠ []) (hd : s.d.valid = false)
    (he : s.e.valid = false) (hm : s.m.valid = false) (hwb : s.wb.valid = false) (hf : fetchStep s = .next t) :
    step s = .next (endCycle (hazardCheck t)) := by
  have idle : ∀ (k : Stage) {l : Latch}, l.valid = false → stageStep k l s = .next s :=
    fun k _ h => stageStep_idle k s (.inl h)
  calc step s
      = runSubSteps stageOrder s := by simp [step, hr, hcode, cycle]
    _ = runSubSteps [.memory, .execute, .decode, .fetch] s := runSubSteps_cons (idle .writeback hwb)
    _ = runSubSteps [.execute, .decode, .fetch] s := runSubSteps_cons (idle .memory hm)
    _ = runSubSteps [.decode, .fetch] s := runSubSteps_cons (idle .execute he)
    _ = runSubSteps [.fetch] s := runSubSteps_cons (idle .decode hd)
    _ = runSubSteps [] t := runSubSteps_cons hf
    _ = .next (endCycle (hazardCheck t)) := rfl

/-! ### A table word placed after reset -/

/-- What the decoder reads from a table word is the instruction of the record it accepts. -/
theorem decode_of_decodeTableWord {nbits w : Nat} {i : Instr} (h : decodeTableWord nbits w = some i) :
    ∃ r, decode Config.default.numRegs (tableWord nbits w) = .ok r ∧ r.instr = i := by
  unfold decodeTableWord decodeInstr at h
  cases hd : decode Config.default.numRegs (tableWord nbits w) with
  | error x =>
    rw [hd] at h
    cases h
  | ok r =>
    rw [hd] at h
    cases h
    exact ⟨r, rfl, rfl⟩

/-- After reset pc is CODE_BASE, so an accepted word becomes the one record of the program (logs 5 and 14). -/
theorem reset_withFetchWord {nbits w : Nat} {r : Record}
    (h : decode Config.default.numRegs (tableWord nbits w) = .ok r) :
    State.reset.withFetchWord nbits w = { State.reset with code := [r] } := by
  have h' : decode State.reset.cfg.numRegs (tableWord nbits w) = .ok r := h
  rw [State.withFetchWord, h']
  rfl

/-- The reset pc reads the one record of the program. -/
theorem reset_codeRead (r : Record) : codeRead { State.reset with code := [r] } State.reset.pc = some r :=
  (codeAt_eq_some_iff (c := Config.default) (by decide)).2 ⟨0, rfl, by decide⟩

/-! ### The statements -/

/-- Settles O29, from what an access answers in and out of range and what a write leaves to read. -/
theorem dataAccessRules : Obligations.DataAccessRules := by
  intro s a v hwf
  constructor
  · intro hlo hhi
    have hin : dataInRange s.cfg a = true := dataInRange_iff.2 ⟨hlo, hhi⟩
    exact ⟨memRead_of_inRange hin, _, memWrite_of_inRange v hin, rfl, write_wf _ _ hwf, read_write hwf _ _⟩
  · intro hout
    have hin : ¬dataInRange s.cfg a = true := by
      rw [dataInRange_iff]
      omega
    exact ⟨memRead_of_outOfRange hin, memWrite_of_outOfRange v hin⟩

/-- Settles O30: the canonical form is a form above 0. -/
theorem equalReadsAreEqualMemories : Obligations.EqualReadsAreEqualMemories :=
  fun _ _ => eq_of_read_eq

/-- Settles O31: where `CodeRead` is defined, and the fault of a fetch where it is not. -/
theorem codeReadRule : Obligations.CodeReadRule :=
  fun _ _ hw => ⟨fun _ => codeAt_eq_some_iff hw, fetchRead_undefined⟩

/-- Settles O37: a cycle keeps the three fields, and an ended run keeps the whole state. -/
theorem codeAndBtbNeverChange : Obligations.CodeAndBtbNeverChange := by
  intro s t h
  rcases step_next h with ⟨_, _, hcycle⟩ | ⟨_, rfl⟩
  · exact runSubSteps_keeps hcycle
  · exact ⟨rfl, rfl, rfl⟩

/-- Settles O14: the placed block has nothing in flight, so its cycle is the fetch of the placed record. -/
theorem placedWordIsTheFirstInstructionRun : Obligations.PlacedWordIsTheFirstInstructionRun := by
  intro nbits w i h
  obtain ⟨r, hdecode, rfl⟩ := decode_of_decodeTableWord h
  refine ⟨r, _, rfl, reset_withFetchWord hdecode, exec_fetch r.instr rfl, ?_⟩
  rw [reset_withFetchWord hdecode]
  have hbtb := resetStateSatisfiesInvariant.no_tag
  have hreads := fetchStep_reads (s := { State.reset with code := [r] }) rfl rfl rfl hbtb
  exact step_of_bubbles rfl (List.cons_ne_nil r []) rfl rfl rfl rfl (hreads.trans (fetchRead_defined (reset_codeRead r)))

end Sys2Proof.Machine

/-!
PROOF. The encoding of 30_encoding.md: what the decoder answers for a word and for a program, that it and the canonical
word of a record are inverse to each other, that a block always steps, and that the fields a format leaves unused never
matter: forgetting them commutes with every operation of a cycle.
-/

namespace Sys2Proof

/-! ### The decoder (30_encoding.md R89) -/

/-- The record whose fields stand at the bit positions of `w` (R81). -/
def fieldsOf (op : Op) (w : CodeWord) : Record :=
  { op := op, rd := rdField w, rs1 := rs1Field w, rs2 := rs2Field w, imm := immField w }

/-- The first check fails: the opcode number is in no row of the table. -/
theorem decode_of_no_mnemonic {w : CodeWord} (n : Nat) (hop : mnemonicOf (opcField w) = none) :
    decode n w = .error .badOpcode := by
  rw [decode, hop]

/-- The second check fails: the reserved byte is not 0. -/
theorem decode_of_reserved {w : CodeWord} {op : Op} (n : Nat) (hop : mnemonicOf (opcField w) = some op)
    (hrsv : rsvField w ≠ 0) : decode n w = .error .reservedBits := by
  rw [decode, hop]
  exact if_pos hrsv

/-- Where the first two checks pass, the third decides between the record of the fields and its refusal. -/
theorem decode_of_fields {w : CodeWord} {op : Op} (n : Nat) (hop : mnemonicOf (opcField w) = some op)
    (hrsv : rsvField w = 0) :
    decode n w = if (fieldsOf op w).instr.wf n then .ok (fieldsOf op w) else .error .badRegister := by
  rw [decode, hop]
  exact if_neg (not_not_intro hrsv)

/-- The decoder accepts a word only as the record of its fields, with the reserved byte 0. -/
theorem decode_eq_ok {n : Nat} {w : CodeWord} {r : Record} (h : decode n w = .ok r) :
    r.op.opc = opcField w ∧ rsvField w = 0 ∧ r = fieldsOf r.op w := by
  cases hop : mnemonicOf (opcField w) with
  | none => cases (decode_of_no_mnemonic n hop).symm.trans h
  | some op =>
    by_cases hrsv : rsvField w = 0
    · rw [decode_of_fields n hop hrsv] at h
      split at h
      · cases h
        exact ⟨opc_of_mnemonicOf hop, hrsv, rfl⟩
      · cases h
    · cases (decode_of_reserved n hop hrsv).symm.trans h

/-- The opcode table has no row exactly for the numbers above 20 (R82, R86). -/
theorem mnemonicOf_eq_none {opc : BitVec 6} (h : 20 < opc.toNat) : mnemonicOf opc = none :=
  List.getElem?_eq_none h

/-- The opcode table has a row for every number up to 20 (R82). -/
theorem exists_mnemonicOf {opc : BitVec 6} (h : opc.toNat ≤ 20) : ∃ op, mnemonicOf opc = some op :=
  ⟨_, List.getElem?_eq_getElem (Nat.lt_succ_of_le h)⟩

/-- An instruction is legal exactly if every used register field is below NUM_REGS. -/
theorem wf_iff {n : Nat} {i : Instr} : i.wf n = true ↔ ∀ x ∈ i.usedRegs, x.toNat < n := by
  simp [Instr.wf, Reg.inFile]

/-- The used register fields that R89 lists by mnemonic are those of the record's instruction. -/
theorem usedFields_eq_usedRegs (r : Record) : Claims.usedFields r = r.instr.usedRegs := by
  cases r with
  | mk op rd rs1 rs2 imm => cases op <;> rfl

/-! ### The canonical word (30_encoding.md R81) -/

/-- Each field function reads its field back from a record's word, and the reserved byte is 0. -/
theorem fields_of_word (r : Record) :
    opcField r.word = r.op.opc ∧ rsvField r.word = 0 ∧ fieldsOf r.op r.word = r := by
  have hopc := r.op.opc.isLt
  have hrd := r.rd.isLt
  have hrs1 := r.rs1.isLt
  have hrs2 := r.rs2.isLt
  have himm := r.imm.isLt
  have hword := word_toNat r
  have opc : opcField r.word = r.op.opc := BitVec.eq_of_toNat_eq (by rw [opcField_toNat]; omega)
  have rsv : rsvField r.word = 0 := BitVec.eq_of_toNat_eq (by rw [rsvField_toNat]; simp; omega)
  have rd : rdField r.word = r.rd := BitVec.eq_of_toNat_eq (by rw [rdField_toNat]; omega)
  have rs1 : rs1Field r.word = r.rs1 := BitVec.eq_of_toNat_eq (by rw [rs1Field_toNat]; omega)
  have rs2 : rs2Field r.word = r.rs2 := BitVec.eq_of_toNat_eq (by rw [rs2Field_toNat]; omega)
  have imm : immField r.word = r.imm := BitVec.eq_of_toNat_eq (by rw [immField_toNat]; omega)
  exact ⟨opc, rsv, by rw [fieldsOf, rd, rs1, rs2, imm]⟩

/-- A word whose reserved byte is 0 is the canonical word of the record of its fields. -/
theorem word_fieldsOf {op : Op} {w : CodeWord} (hop : op.opc = opcField w) (hrsv : rsvField w = 0) :
    (fieldsOf op w).word = w := by
  have hw := w.isLt
  have hrsv : w.toNat / 2 ^ 32 % 2 ^ 8 = 0 := by rw [← rsvField_toNat, hrsv]; rfl
  apply BitVec.eq_of_toNat_eq
  simp only [word_toNat, fieldsOf, hop, opcField_toNat, rdField_toNat, rs1Field_toNat, rs2Field_toNat, immField_toNat]
  omega

/-! ### The load of a program (60_exceptions.md R255) -/

/-- The decoder refuses a program by the name of the first word it refuses (log 13). -/
theorem decodeAll_of_first_bad {n : Nat} {bad : CodeWord} {x : LoadFailure} (hbad : decode n bad = .error x)
    (after : List CodeWord) : ∀ before : List CodeWord, (∀ w ∈ before, ∃ r, decode n w = .ok r) →
      decodeAll n (before ++ bad :: after) = .error x
  | [], _ => by rw [List.nil_append, decodeAll, hbad]
  | w :: before, hok => by
    obtain ⟨⟨r, hr⟩, hrest⟩ := List.forall_mem_cons.1 hok
    rw [List.cons_append, decodeAll, hr, decodeAll_of_first_bad hbad after before hrest]

/-! ### The mnemonic of a record (30_encoding.md R85) -/

/-- The record of an instruction has the instruction's mnemonic. -/
@[simp] theorem Instr.record_op (i : Instr) : i.record.op = i.op := by cases i <;> rfl

/-- Forgetting leaves a record's mnemonic. -/
@[simp] theorem Record.normal_op (r : Record) : r.normal.op = r.op :=
  (Instr.record_op r.instr).trans (Record.instr_op r)

namespace Machine

/-! ### No operation of a block is refused (30_encoding.md R86, 60_exceptions.md R252) -/

/-- The destination of a register writer is a used register field (R83, R89). -/
theorem record_rd_mem_usedRegs {i : Instr} (h : isWriter i.op = true) : i.record.rd ∈ i.usedRegs := by
  cases i with
  | add | sub | and | or | xor | addl | subl | movc | load | jal => exact List.mem_cons_self
  | _ => cases h

/-- The first source of an instruction that reads one is a used register field (R83, R89). -/
theorem record_rs1_mem_usedRegs {i : Instr} (h : readsRs1 i.op = true) : i.record.rs1 ∈ i.usedRegs := by
  cases i with
  | add | sub | and | or | xor | addl | subl | load | jal => exact List.mem_cons_of_mem _ List.mem_cons_self
  | cmp | store | jump => exact List.mem_cons_self
  | _ => cases h

/-- The second source of an instruction that reads one is a used register field (R83, R89). -/
theorem record_rs2_mem_usedRegs {i : Instr} (h : readsRs2 i.op = true) : i.record.rs2 ∈ i.usedRegs := by
  cases i with
  | add | sub | and | or | xor | cmp | store => exact List.mem_of_mem_getLast? rfl
  | _ => cases h

/-- The forwarding mux has a value for every register of the file (R118). -/
theorem exists_fwd {s : State} {r : Reg} (h : r.toNat < s.regs.length) : ∃ v, fwd s r = some v := by
  unfold fwd
  split
  · exact ⟨_, rfl⟩
  · split
    · exact ⟨_, rfl⟩
    · exact ⟨_, List.getElem?_eq_getElem h⟩

/-- The writeback part of a register writer whose destination is in the file: the register written, the instruction
retired (R132 to R134). -/
theorem writebackReg_of_inFile {s : State} {rd : Reg} (h : rd.toNat < s.regs.length) :
    writebackReg rd s = .next (retire { s with regs := s.regs.set rd.toNat s.wb.resultBuffer }) := by
  rw [writebackReg, writeReg, if_pos h]

/-- The writeback part of a register writer whose destination is outside the file is refused (log 12). -/
theorem writebackReg_of_outside {s : State} {rd : Reg} (h : ¬rd.toNat < s.regs.length) :
    writebackReg rd s = .refused (.registerOutsideFile rd) := by
  rw [writebackReg, writeReg, if_neg h]

/-- The writeback sub-step is not refused when a live WB holds a legal instruction. -/
theorem writebackStep_ne_refused {s : State} (hl : s.wb.legal s.regs.length) (x : Refusal) :
    writebackStep s ≠ .refused x := by
  intro h
  rcases s.wb.live_or_idle with ⟨hv, hs⟩ | hi
  · rw [writebackStep, stageStep_live _ _ hv hs, exec_writeback _ rfl] at h
    split at h
    case isTrue hw =>
      have hrd := wf_iff.1 (hl hv).1 _ (record_rd_mem_usedRegs hw)
      cases (writebackReg_of_inFile (s := atStage .writeback s) hrd).symm.trans h
    case isFalse => split at h <;> cases h
  · cases (stageStep_idle .writeback s hi).symm.trans h

/-- The memory sub-step is never refused: an access answers a value or a fault (20_memory.md R64, R65). -/
theorem memoryStep_ne_refused (s : State) (x : Refusal) : memoryStep s ≠ .refused x := by
  intro h
  rcases s.m.live_or_idle with ⟨hv, hs⟩ | hi
  · rw [memoryStep, stageStep_live _ _ hv hs, exec_memory _ rfl] at h
    unfold memoryLoad memoryStore memoryPass at h
    repeat' split at h
    all_goals cases h
  · cases (stageStep_idle .memory s hi).symm.trans h

/-- The execute sub-step is never refused. -/
theorem executeStep_ne_refused (s : State) (x : Refusal) : executeStep s ≠ .refused x := by
  intro h
  rcases s.e.live_or_idle with ⟨hv, hs⟩ | hi
  · cases (executeStep_live hv hs).symm.trans h
  · cases (stageStep_idle .execute s hi).symm.trans h

/-- The decode sub-step is not refused when a live D holds a legal instruction: its sources are in the file. -/
theorem decodeStep_ne_refused {s : State} (hl : s.d.legal s.regs.length) (x : Refusal) :
    decodeStep s ≠ .refused x := by
  intro h
  rcases s.d.live_or_idle with ⟨hv, hs⟩ | hi
  · have hwf := wf_iff.1 (hl hv).1
    rw [decodeStep, stageStep_live _ _ hv hs, exec_decode _ rfl] at h
    split at h
    case isTrue h2 =>
      have h1 := readsRs1_of_readsRs2 h2
      obtain ⟨a, ha⟩ := exists_fwd (s := atStage .decode s) (hwf _ (record_rs1_mem_usedRegs h1))
      obtain ⟨b, hb⟩ := exists_fwd (s := atStage .decode s) (hwf _ (record_rs2_mem_usedRegs h2))
      rw [decodeBoth, ha, hb] at h
      cases h
    case isFalse =>
      split at h
      case isTrue h1 =>
        obtain ⟨a, ha⟩ := exists_fwd (s := atStage .decode s) (hwf _ (record_rs1_mem_usedRegs h1))
        rw [decodeFirst, ha] at h
        cases h
      case isFalse => cases h
  · cases (stageStep_idle .decode s hi).symm.trans h

/-- The fetch sub-step is not refused when no BTB entry has a tag (40_pipeline_engine.md R145). -/
theorem fetchStep_ne_refused {s : State} (hbtb : ∀ x ∈ s.btb, x.tag = none) (x : Refusal) :
    fetchStep s ≠ .refused x := by
  intro h
  rw [fetchStep, btbPredictStep_of_no_tag hbtb] at h
  split at h
  · cases h
  · split at h
    · cases h
    · split at h
      · cases h
      · cases hread : codeRead s s.pc with
        | none => cases (fetchRead_undefined hread).symm.trans h
        | some r => cases (fetchRead_defined hread).symm.trans h

/-- Sub-steps are not refused if the first is not and those after it are not. -/
theorem runSubSteps_ne_refused {k : Stage} {rest : List Stage} {s : State} {x : Refusal}
    (hk : subStep k s ≠ .refused x) (hrest : ∀ u, subStep k s = .next u → runSubSteps rest u ≠ .refused x) :
    runSubSteps (k :: rest) s ≠ .refused x := by
  intro h
  rw [runSubSteps] at h
  cases hsub : subStep k s with
  | next u => exact hrest u hsub (by rwa [hsub] at h)
  | fault y => rw [hsub] at h; cases h
  | refused y => rw [hsub] at h hk; cases h; exact hk rfl

/-- A run of sub-steps turns every fault into a next state (R252; log 7). -/
theorem runSubSteps_ne_fault (ks : List Stage) (s : State) (x : Fault) : runSubSteps ks s ≠ .fault x := by
  induction ks generalizing s with
  | nil => nofun
  | cons k ks ih =>
    rw [runSubSteps]
    cases subStep k s with
    | next t => exact ih t
    | fault y => nofun
    | refused y => nofun

/-- No step answers a fault (R252; log 7). -/
theorem step_ne_fault (s : State) (x : Fault) : step s ≠ .fault x := by
  unfold step
  cases s.status with
  | running =>
    cases s.code.isEmpty with
    | true => nofun
    | false => exact runSubSteps_ne_fault stageOrder s x
  | halted | faulted | stopped => nofun

/-- The writeback sub-step keeps the number of registers. -/
theorem writebackStep_regs_length {s t : State} (h : writebackStep s = .next t) : t.regs.length = s.regs.length := by
  rcases s.wb.live_or_idle with ⟨hv, hs⟩ | hi
  · rw [writebackStep_live hv hs h]
    cases isWriter s.wb.op <;> simp
  · cases (stageStep_idle .writeback s hi).symm.trans h
    rfl

/-- The execute sub-step keeps D legal: it leaves D or, by a redirect, empties it (R124). -/
theorem executeStep_legalD {s t : State} {n : Nat} (hl : s.d.legal n) (h : executeStep s = .next t) : t.d.legal n := by
  rcases s.e.live_or_idle with ⟨hv, hs⟩ | hi
  · cases (executeStep_live hv hs).symm.trans h
    obtain ⟨_, _, _, _, _, hr⟩ := executeResult_frame s.e.instr (atStage .execute s)
    rw [executeArm, hr]
    split
    · exact nofun
    · exact hl
  · cases (stageStep_idle .execute s hi).symm.trans h
    exact hl

/-- No cycle of a block is refused: the sub-steps before decode leave what decode and fetch need. -/
theorem cycle_ne_refused {s : State} (hinv : s.Inv) (x : Refusal) : cycle s ≠ .refused x := by
  have hwb : s.wb.legal s.regs.length := hinv.regCount ▸ hinv.legalWb
  refine runSubSteps_ne_refused (writebackStep_ne_refused hwb x) fun a ha => ?_
  refine runSubSteps_ne_refused (memoryStep_ne_refused a x) fun b hb => ?_
  refine runSubSteps_ne_refused (executeStep_ne_refused b x) fun c hc => ?_
  have hlegal : c.d.legal c.regs.length := by
    have hregs := writebackStep_regs_length ha
    obtain ⟨_, _, _, _, rfl⟩ := writebackStep_frame ha
    obtain ⟨_, _, _, _, rfl⟩ := memoryStep_frame hb
    have hd := executeStep_legalD (n := s.cfg.numRegs) (by exact hinv.legalD) hc
    obtain ⟨_, _, _, _, _, _, _, _, _, _, rfl⟩ := executeStep_frame hc
    rwa [hregs, hinv.regCount]
  refine runSubSteps_ne_refused (decodeStep_ne_refused hlegal x) fun d hd => ?_
  have hbtb : d.btb = s.btb := by
    obtain ⟨_, _, hab, _⟩ := subStep_keeps ha
    obtain ⟨_, _, hbb, _⟩ := subStep_keeps hb
    obtain ⟨_, _, hcb, _⟩ := subStep_keeps hc
    obtain ⟨_, _, hdb, _⟩ := subStep_keeps hd
    exact hdb.trans (hcb.trans (hbb.trans hab))
  exact runSubSteps_ne_refused (fetchStep_ne_refused (hbtb ▸ hinv.no_tag) x) fun u _ => nofun

/-- No step of a block with a program is refused. -/
theorem step_ne_refused {s : State} (hinv : s.Inv) (hcode : s.code ≠ []) (x : Refusal) : step s ≠ .refused x := by
  unfold step
  cases s.status with
  | running =>
    rw [List.isEmpty_eq_false_iff.2 hcode]
    exact cycle_ne_refused hinv x
  | halted | faulted | stopped => nofun

/-! ### Forgetting the don't-care fields (30_encoding.md R85) -/

/-! Forgetting changes only code memory and, in the latches, the four fields of the record. -/

@[simp] theorem Latch.normal_valid (l : Latch) : l.normal.valid = l.valid := rfl
@[simp] theorem Latch.normal_stall (l : Latch) : l.normal.stall = l.stall := rfl
@[simp] theorem Latch.normal_op (l : Latch) : l.normal.op = l.op := rfl
@[simp] theorem Latch.normal_memoryAddress (l : Latch) : l.normal.memoryAddress = l.memoryAddress := rfl
@[simp] theorem State.normal_cfg (s : State) : s.normal.cfg = s.cfg := rfl
@[simp] theorem State.normal_code (s : State) : s.normal.code = s.code.map Record.normal := rfl
@[simp] theorem State.normal_pc (s : State) : s.normal.pc = s.pc := rfl
@[simp] theorem State.normal_z (s : State) : s.normal.z = s.z := rfl
@[simp] theorem State.normal_n (s : State) : s.normal.n = s.n := rfl
@[simp] theorem State.normal_p (s : State) : s.normal.p = s.p := rfl
@[simp] theorem State.normal_f (s : State) : s.normal.f = s.f.normal := rfl
@[simp] theorem State.normal_d (s : State) : s.normal.d = s.d.normal := rfl
@[simp] theorem State.normal_e (s : State) : s.normal.e = s.e.normal := rfl
@[simp] theorem State.normal_m (s : State) : s.normal.m = s.m.normal := rfl
@[simp] theorem State.normal_wb (s : State) : s.normal.wb = s.wb.normal := rfl
@[simp] theorem State.normal_redirectPending (s : State) : s.normal.redirectPending = s.redirectPending := rfl
@[simp] theorem State.normal_btb (s : State) : s.normal.btb = s.btb := rfl
@[simp] theorem State.normal_status (s : State) : s.normal.status = s.status := rfl

/-- Forgetting leaves a latch's instruction. -/
@[simp] theorem Latch.normal_instr (l : Latch) : l.normal.instr = l.instr := by
  have hrecord : ({ l.instr.record with op := l.op } : Record) = l.instr.record := by
    rw [← Latch.instr_op l, ← Instr.record_op]
  exact (congrArg Record.instr hrecord).trans (record_instr _)

/-- A latch reads the same registers once the fields it does not use are forgotten (R105). -/
@[simp] theorem readsReg_normal (l : Latch) (r : Reg) : readsReg l.normal r = readsReg l r := by
  have first : (readsRs1 l.op && l.normal.rs1 == r) = (readsRs1 l.op && l.rs1 == r) := by
    cases h : readsRs1 l.op with
    | false => rfl
    | true => rw [show l.normal.rs1 = l.rs1 from Latch.instr_rs1 h]
  have second : (readsRs2 l.op && l.normal.rs2 == r) = (readsRs2 l.op && l.rs2 == r) := by
    cases h : readsRs2 l.op with
    | false => rfl
    | true => rw [show l.normal.rs2 = l.rs2 from Latch.instr_rs2 h]
  exact congrArg₂ or first second

/-- The destination of a register writer is no don't-care field. -/
theorem Latch.normal_rd {l : Latch} (h : isWriter l.op = true) : l.normal.rd = l.rd := Latch.instr_rd h

/-! ### Forgetting commutes with every operation of a cycle

Each operation, run on a state whose don't-care fields are forgotten, answers what it answers on the state itself with
those fields forgotten. -/

/-- The hazard condition reads no don't-care field (R136). -/
theorem hazardCondition_normal (s : State) : hazardCondition s.normal = hazardCondition s := by
  cases h : isWriter s.e.op with
  | false => simp [hazardCondition, h]
  | true => simp [hazardCondition, Latch.normal_rd h]

/-- The hazard check commutes with forgetting. -/
theorem hazardCheck_normal (s : State) : hazardCheck s.normal = (hazardCheck s).normal := by
  rw [hazardCheck, hazardCondition_normal]
  rfl

/-- The forwarding mux reads no don't-care field (R118). -/
theorem fwd_normal (s : State) (r : Reg) : fwd s.normal r = fwd s r := by
  have fromM : forwardsFromM s.normal r = forwardsFromM s r := by
    cases h : isWriter s.m.op with
    | false => simp [forwardsFromM, h]
    | true => simp [forwardsFromM, Latch.normal_rd h]
  have fromWb : forwardsFromWb s.normal r = forwardsFromWb s r := by
    cases h : isWriter s.wb.op with
    | false => simp [forwardsFromWb, h]
    | true => simp [forwardsFromWb, Latch.normal_rd h]
  rw [fwd, fromM, fromWb]
  rfl

/-- The read into F commutes with forgetting: the latch takes the record's fields as they are (R110). -/
theorem latchFetched_normal (r : Record) (s : State) :
    latchFetched r.normal s.normal = (latchFetched r s).normal := by
  rw [latchFetched, Record.normal_op]
  rfl

/-- The fetch part commutes with forgetting. -/
theorem fetchPart_normal (i : Instr) (s : State) : fetchPart i s.normal = (fetchPart i s).normal := by
  unfold fetchPart
  split <;> rfl

/-- The decode part with one operand commutes with forgetting. -/
theorem decodeFirst_normal (rs1 : Reg) (s : State) : decodeFirst rs1 s.normal = normalOutcome (decodeFirst rs1 s) := by
  rw [decodeFirst, decodeFirst, fwd_normal]
  cases fwd s rs1 <;> rfl

/-- The decode part with two operands commutes with forgetting. -/
theorem decodeBoth_normal (rs1 rs2 : Reg) (s : State) :
    decodeBoth rs1 rs2 s.normal = normalOutcome (decodeBoth rs1 rs2 s) := by
  rw [decodeBoth, decodeBoth, fwd_normal, fwd_normal]
  cases fwd s rs1 with
  | none => rfl
  | some a => cases fwd s rs2 <;> rfl

/-- The execute arm commutes with forgetting: it takes its operands from the instruction and the values in E. -/
theorem executeArm_normal (i : Instr) (s : State) : executeArm i s.normal = (executeArm i s).normal := by
  have result : executeResult i s.normal = (executeResult i s).normal := by cases i <;> rfl
  rw [executeArm, executeArm, result, State.normal_z, State.normal_n, State.normal_p]
  split <;> rfl

/-- The memory part of LOAD commutes with forgetting. -/
theorem memoryLoad_normal (s : State) : memoryLoad s.normal = normalOutcome (memoryLoad s) := by
  have read : memRead s.normal s.m.memoryAddress = memRead s s.m.memoryAddress := rfl
  rw [memoryLoad, memoryLoad, State.normal_m, Latch.normal_memoryAddress, read]
  cases memRead s s.m.memoryAddress <;> rfl

/-- The memory part of STORE commutes with forgetting. -/
theorem memoryStore_normal (s : State) : memoryStore s.normal = normalOutcome (memoryStore s) := by
  rw [memoryStore, memoryStore, State.normal_m, Latch.normal_memoryAddress]
  by_cases h : dataInRange s.cfg s.m.memoryAddress = true
  · rw [memWrite_of_inRange _ h, memWrite_of_inRange (s := s.normal) _ h]
    rfl
  · rw [memWrite_of_outOfRange _ h, memWrite_of_outOfRange (s := s.normal) _ h]
    rfl

/-- The writeback part of a register writer commutes with forgetting. -/
theorem writebackReg_normal (rd : Reg) (s : State) : writebackReg rd s.normal = normalOutcome (writebackReg rd s) := by
  by_cases h : rd.toNat < s.regs.length
  · rw [writebackReg_of_inFile h, writebackReg_of_inFile (s := s.normal) h]
    rfl
  · rw [writebackReg_of_outside h, writebackReg_of_outside (s := s.normal) h]
    rfl

/-- The part of an instruction in every stage commutes with forgetting. -/
theorem exec_normal (i : Instr) (s : State) : exec i s.normal = normalOutcome (exec i s) := by
  cases h : s.seq.stage with
  | fetch => rw [exec_fetch i h, exec_fetch i (s := s.normal) h, fetchPart_normal, normalOutcome]
  | decode =>
    rw [exec_decode i h, exec_decode i (s := s.normal) h]
    split
    · exact decodeBoth_normal _ _ s
    · split
      · exact decodeFirst_normal _ s
      · rfl
  | execute =>
    rw [exec_execute i h, exec_execute i (s := s.normal) h, executeArm_normal]
    rfl
  | memory =>
    rw [exec_memory i h, exec_memory i (s := s.normal) h]
    split
    · exact memoryLoad_normal s
    · split
      · exact memoryStore_normal s
      · rfl
  | writeback =>
    rw [exec_writeback i h, exec_writeback i (s := s.normal) h]
    split
    · exact writebackReg_normal _ s
    · split <;> rfl

/-- The sub-step of a stage commutes with forgetting: the latch keeps its instruction. -/
theorem stageStep_normal (k : Stage) (l : Latch) (s : State) :
    stageStep k l.normal s.normal = normalOutcome (stageStep k l s) := by
  rcases l.live_or_idle with ⟨hv, hs⟩ | hi
  · rw [stageStep_live k s hv hs, stageStep_live (l := l.normal) k s.normal hv hs, Latch.normal_instr]
    exact exec_normal l.instr (atStage k s)
  · rw [stageStep_idle k s hi, stageStep_idle (l := l.normal) k s.normal hi]
    rfl

/-- `CodeRead` after forgetting is the record with its don't-care fields forgotten (R61). -/
theorem codeRead_normal (s : State) (p : Word) : codeRead s.normal p = (codeRead s p).map Record.normal := by
  simp only [codeRead, codeAt, State.normal_cfg, State.normal_code, List.length_map, List.getElem?_map]
  split <;> rfl

/-- The prediction step commutes with forgetting: it reads the mnemonic at pc and the BTB (R109). -/
theorem btbPredictStep_normal (s : State) : btbPredictStep s.normal = normalOutcome (btbPredictStep s) := by
  unfold btbPredictStep
  rw [State.normal_pc, State.normal_btb, codeRead_normal]
  cases codeRead s s.pc with
  | none => rfl
  | some r =>
    simp only [Option.map_some, Record.normal_op]
    cases isBranch r.op with
    | false => rfl
    | true =>
      cases btbLookup s.btb s.pc with
      | none => rfl
      | some i =>
        cases h : btbPredict (s.btb.getD i BtbEntry.empty).history r.op with
        | false => simp only [h]; rfl
        | true =>
          simp only [h]
          cases (s.btb.getD i BtbEntry.empty).target <;> rfl

/-- The read of the fetch sub-step commutes with forgetting. -/
theorem fetchRead_normal (s : State) : fetchRead s.normal = normalOutcome (fetchRead s) := by
  have read : codeRead s.normal s.normal.pc = (codeRead s s.pc).map Record.normal := codeRead_normal s s.pc
  cases h : codeRead s s.pc with
  | none =>
    rw [h] at read
    rw [fetchRead_undefined h, fetchRead_undefined read]
    rfl
  | some r =>
    rw [h] at read
    rw [fetchRead_defined h, fetchRead_defined read, latchFetched_normal, Sys2Proof.normal_instr]
    exact congrArg _ (fetchPart_normal r.instr (atStage .fetch (latchFetched r s)))

/-- The fetch sub-step commutes with forgetting. -/
theorem fetchStep_normal (s : State) : fetchStep s.normal = normalOutcome (fetchStep s) := by
  rw [fetchStep, fetchStep, State.normal_f, Latch.normal_stall, Latch.normal_valid, State.normal_redirectPending,
    hazardCheck_normal, btbPredictStep_normal]
  split
  · rfl
  · split
    · rfl
    · split
      · rfl
      · cases btbPredictStep s with
        | next t => exact fetchRead_normal t
        | fault x => rfl
        | refused x => rfl

/-- Every sub-step commutes with forgetting. -/
theorem subStep_normal (k : Stage) (s : State) : subStep k s.normal = normalOutcome (subStep k s) := by
  cases k with
  | writeback => exact stageStep_normal .writeback s.wb s
  | memory => exact stageStep_normal .memory s.m s
  | execute => exact stageStep_normal .execute s.e s
  | decode => exact stageStep_normal .decode s.d s
  | fetch => exact fetchStep_normal s

/-- A run of sub-steps to the end of the cycle commutes with forgetting, fault or not. -/
theorem runSubSteps_normal (ks : List Stage) (s : State) :
    runSubSteps ks s.normal = normalOutcome (runSubSteps ks s) := by
  induction ks generalizing s with
  | nil =>
    rw [runSubSteps, hazardCheck_normal]
    rfl
  | cons k ks ih =>
    rw [runSubSteps, runSubSteps, subStep_normal]
    cases subStep k s with
    | next t => exact ih t
    | fault x => rfl
    | refused x => rfl

/-- A step commutes with forgetting the don't-care fields. -/
theorem step_normal (s : State) : step s.normal = normalOutcome (step s) := by
  rw [step, step, State.normal_status, State.normal_code, List.isEmpty_map, cycle, runSubSteps_normal]
  cases s.status with
  | running => cases s.code.isEmpty <;> rfl
  | halted | faulted | stopped => rfl

/-! ### The statements -/

/-- Settles O1: the fields of the record's word are the record's, so the third check is its legality. -/
theorem decodeReadsBackEveryLegalRecord : Obligations.DecodeReadsBackEveryLegalRecord := by
  intro n r hwf
  obtain ⟨hopc, hrsv, hfields⟩ := fields_of_word r
  rw [decode_of_fields n (hopc ▸ mnemonicOf_opc r.op) hrsv, hfields, if_pos hwf]

/-- Settles O2: the record of the instruction is legal, is read back (O1) and stands for the instruction. -/
theorem decodeOfEncodeIsTheInstruction : Obligations.DecodeOfEncodeIsTheInstruction := by
  intro n i hwf
  have hread : decode n (encode i) = .ok i.record :=
    decodeReadsBackEveryLegalRecord n i.record (by rwa [record_instr])
  rw [decodeInstr, hread]
  exact congrArg Except.ok (record_instr i)

/-- A word that is the encoding of a legal instruction is read as the instruction (O2). -/
theorem decodeInstr_and_encode_eq {i : Instr} {w : CodeWord} (hwf : i.wf 16 = true) (hw : encode i = w) :
    decodeInstr 16 w = .ok i ∧ encode i = w :=
  ⟨hw ▸ decodeOfEncodeIsTheInstruction 16 i hwf, hw⟩

/-- Settles O51: both steps, with the don't-care fields forgotten, are the step of the one forgotten state. -/
theorem dontCareFieldsNeverMatter : Obligations.DontCareFieldsNeverMatter := by
  intro s s' h
  rw [← step_normal, ← step_normal, h]

/-- Settles O3: the accepted record is the record of the word's fields. -/
theorem acceptedWordIsItsRecordsWord : Obligations.AcceptedWordIsItsRecordsWord := by
  intro n w r h
  obtain ⟨hop, hrsv, hr⟩ := decode_eq_ok h
  rw [hr]
  exact word_fieldsOf hop hrsv

/-- Settles O4, by the three equations of the decoder and the value of each field. -/
theorem decoderChecksInOrder : Obligations.DecoderChecksInOrder := by
  intro n w
  rw [← opcField_toNat, ← rsvField_toNat]
  refine ⟨fun hbad => decode_of_no_mnemonic n (mnemonicOf_eq_none hbad), fun hop hrsv => ?_, fun hop hrsv => ?_⟩
  · obtain ⟨op, hmn⟩ := exists_mnemonicOf hop
    exact decode_of_reserved n hmn fun h => hrsv (by rw [h]; rfl)
  · obtain ⟨op, hmn⟩ := exists_mnemonicOf hop
    have hdecode := decode_of_fields n hmn (BitVec.eq_of_toNat_eq hrsv)
    refine ⟨fieldsOf op w, congrArg BitVec.toNat (opc_of_mnemonicOf hmn), rdField_toNat w, rs1Field_toNat w,
      rs2Field_toNat w, immField_toNat w, ?_⟩
    rw [usedFields_eq_usedRegs]
    constructor
    · intro hlegal
      rw [hdecode, if_pos (wf_iff.2 hlegal)]
    · rintro ⟨x, hx, hout⟩
      rw [hdecode, if_neg fun hwf => absurd (wf_iff.1 hwf x hx) (Nat.not_lt.2 hout)]

/-- Settles O7: a program that fits and is not empty is refused by its words alone. -/
theorem loadRefusesByTheFirstBadWord : Obligations.LoadRefusesByTheFirstBadWord := by
  intro c before bad after x hfits hok hbad
  have hload : loadProgram c (before ++ bad :: after) = decodeAll c.numRegs (before ++ bad :: after) :=
    if_neg (by rw [hfits]; simp)
  rw [hload]
  exact decodeAll_of_first_bad hbad after before hok

/-- Settles O12: of the three outcomes of a step, neither a fault nor a refusal is left. -/
theorem everyBlockSteps : Obligations.EveryBlockSteps := by
  refine ⟨fun s hinv hcode => ?_, step_ne_fault⟩
  cases h : step s with
  | next t => exact ⟨t, rfl⟩
  | fault x => exact absurd h (step_ne_fault s x)
  | refused x => exact absurd h (step_ne_refused hinv hcode x)

/-- Settles O5: each of the six instructions is legal and is written as its word, so it is read back (O2). -/
theorem encodingExamplesOfTheSpec : Obligations.EncodingExamplesOfTheSpec :=
  ⟨decodeInstr_and_encode_eq (by decide) (by decide), decodeInstr_and_encode_eq (by decide) (by decide),
    decodeInstr_and_encode_eq (by decide) (by decide), decodeInstr_and_encode_eq (by decide) (by decide),
    decodeInstr_and_encode_eq (by decide) (by decide), decodeInstr_and_encode_eq (by decide) (by decide)⟩

end Machine
end Sys2Proof

/-!
PROOF. The pipeline engine of 40_pipeline_engine.md: the rules of its shared parts (forwarding mux, hazard check, BTB),
how an instruction moves from latch to latch, that every step keeps the invariant, what a cycle does around stalls,
control transfers, HALT and faults, and the operand values that decoding finds.
-/

namespace Sys2Proof.Machine

/-! ### The opcode sets of R104, R105 and R109, as lists -/

/-- `WRITERS` (R104). -/
theorem isWriter_iff {op : Op} :
    isWriter op = true ↔ op ∈ [Op.add, .sub, .and, .or, .xor, .addl, .subl, .movc, .load, .jal] := by
  cases op <;> decide

/-- The mnemonics whose SRCS hold rs2, and rs1 with it (R105). -/
theorem readsRs2_iff {op : Op} : readsRs2 op = true ↔ op ∈ [Op.add, .sub, .and, .or, .xor, .cmp, .store] := by
  cases op <;> decide

/-- The mnemonics whose SRCS hold rs1: with rs2, or alone (R105). -/
theorem readsRs1_iff {op : Op} :
    readsRs1 op = true ↔ readsRs2 op = true ∨ op ∈ [Op.addl, .subl, .load, .jump, .jal] := by
  cases op <;> decide

/-- The conditional branches (R109). -/
theorem isBranch_iff {op : Op} : isBranch op = true ↔ op ∈ [Op.bz, .bnz, .bp, .bnp, .bn, .bnn] := by
  cases op <;> decide

/-- `SRCREGS` (R105): both source fields of the mnemonics that read two registers, rs1 of those that read one. -/
theorem readsReg_iff {l : Latch} {r : Reg} :
    readsReg l r = true ↔
      (l.op ∈ [Op.add, .sub, .and, .or, .xor, .cmp, .store] ∧ (l.rs1 = r ∨ l.rs2 = r)) ∨
      (l.op ∈ [Op.addl, .subl, .load, .jump, .jal] ∧ l.rs1 = r) := by
  rw [← readsRs2_iff, readsReg, Bool.or_eq_true, Bool.and_eq_true, Bool.and_eq_true, beq_iff_eq, beq_iff_eq,
    readsRs1_iff]
  tauto

/-- An instruction that reads rs1 reads the register its rs1 field names. -/
theorem readsReg_rs1 {l : Latch} (h : readsRs1 l.op = true) : readsReg l l.rs1 = true := by
  simp [readsReg, h]

/-- An instruction that reads rs2 reads the register its rs2 field names. -/
theorem readsReg_rs2 {l : Latch} (h : readsRs2 l.op = true) : readsReg l l.rs2 = true := by
  simp [readsReg, h]

/-- The hazard condition (R136), as a proposition. -/
theorem hazardCondition_iff {s : State} :
    hazardCondition s = true ↔
      s.e.valid = true ∧ s.d.valid = true ∧ isWriter s.e.op = true ∧ s.e.rd ≠ 0 ∧ readsReg s.d s.e.rd = true := by
  simp [hazardCondition, and_assoc]

/-- M as a forwarding source (R118), as a proposition. -/
theorem forwardsFromM_iff {s : State} {r : Reg} :
    forwardsFromM s r = true ↔ s.m.valid = true ∧ isWriter s.m.op = true ∧ s.m.op ≠ .load ∧ s.m.rd = r := by
  simp [forwardsFromM, and_assoc]

/-- WB as a forwarding source (R118), as a proposition. -/
theorem forwardsFromWb_iff {s : State} {r : Reg} :
    forwardsFromWb s r = true ↔ s.wb.valid = true ∧ isWriter s.wb.op = true ∧ s.wb.rd = r := by
  simp [forwardsFromWb, and_assoc]

/-! ### The prediction step of the BTB (R109) -/

/-- Where no record lies at pc, there is nothing to predict. -/
theorem btbPredictStep_of_no_record {s : State} (h : codeRead s s.pc = none) : btbPredictStep s = .next s := by
  rw [btbPredictStep, h]

/-- Another instruction than a conditional branch does not consult the BTB. -/
theorem btbPredictStep_of_no_branch {s : State} {r : Record} (h : codeRead s s.pc = some r)
    (hb : isBranch r.op = false) : btbPredictStep s = .next s := by
  simp [btbPredictStep, h, hb]

/-- A lookup that misses predicts nothing. -/
theorem btbPredictStep_of_miss {s : State} {r : Record} (h : codeRead s s.pc = some r)
    (hl : btbLookup s.btb s.pc = none) : btbPredictStep s = .next s := by
  simp [btbPredictStep, h, hl]

/-- A branch that hits an entry with a target when it predicts taken goes to the target, and else by W. -/
theorem btbPredictStep_of_hit {s : State} {r : Record} {i : Nat} {x : BtbEntry} (h : codeRead s s.pc = some r)
    (hb : isBranch r.op = true) (hl : btbLookup s.btb s.pc = some i) (hx : s.btb[i]? = some x) :
    (∀ t, btbPredict x.history r.op = true → x.target = some t → btbPredictStep s = .next { s with pc := t }) ∧
      (btbPredict x.history r.op = false → btbPredictStep s = .next { s with pc := nextPc s.cfg s.pc }) := by
  constructor
  · intro t taken htarget
    simp [btbPredictStep, h, hb, hl, hx, taken, htarget]
  · intro notTaken
    simp [btbPredictStep, h, hb, hl, hx, notTaken]

/-- No entry has the address as its tag, so the lookup finds none (R142). -/
theorem btbLookup_eq_none {btb : List BtbEntry} {a : Word} (h : ∀ x ∈ btb, x.tag ≠ some a) :
    btbLookup btb a = none :=
  List.findIdx?_eq_none_iff.2 fun x hx => beq_false_of_ne (h x hx)

/-- The lookup finds the first entry with the address as its tag (R142). -/
theorem btbLookup_first {before after : List BtbEntry} {x : BtbEntry} {a : Word}
    (hbefore : ∀ y ∈ before, y.tag ≠ some a) (hx : x.tag = some a) :
    btbLookup (before ++ x :: after) a = some before.length := by
  have miss := btbLookup_eq_none hbefore
  rw [btbLookup] at miss
  rw [btbLookup, List.findIdx?_append, miss, List.findIdx?_cons, hx]
  simp

/-! ### An instruction handed on from latch to latch (R102) -/

/-- What a sub-step leaves in the latch after its own: the instruction of `src`, whatever values it computed, or, where
`src` holds none, the latch `old` as it was. -/
inductive HandedOn (src old : Latch) : Latch → Prop where
  | instruction (live : src.valid = true) (x y v a : Word) :
      HandedOn src old { src with rs1Value := x, rs2Value := y, resultBuffer := v, memoryAddress := a }
  | bubble (idle : src.valid = false) : HandedOn src old old

/-- A sub-step hands the instruction of `src` on into `old`, which becomes `new`, and leaves `src` empty, as `left`. -/
structure Moves (src old new left : Latch) : Prop where
  handed : HandedOn src old new
  emptied : left.valid = false
  leftStall : left.stall = src.stall
  leftPc : left.pc = src.pc

/-- A bubble is legal. -/
theorem Latch.legal_of_bubble {l : Latch} {n : Nat} (h : l.valid = false) : l.legal n :=
  fun hv => by cases hv.symm.trans h

/-- A bubble is no HALT. -/
theorem Latch.not_isHalt_of_bubble {l : Latch} (h : l.valid = false) : ¬l.isHalt :=
  fun ⟨hv, _⟩ => by cases hv.symm.trans h

/-- Handing on keeps a latch legal. -/
theorem HandedOn.legal {src old new : Latch} {n : Nat} (h : HandedOn src old new) (hsrc : src.legal n)
    (hold : old.legal n) : new.legal n := by
  cases h with
  | instruction _ x y v a => exact hsrc
  | bubble _ => exact hold

/-- Handing on keeps a latch unstalled. -/
theorem HandedOn.unstalled {src old new : Latch} (h : HandedOn src old new) (hsrc : src.stall = false)
    (hold : old.stall = false) : new.stall = false := by
  cases h with
  | instruction _ x y v a => exact hsrc
  | bubble _ => exact hold

/-- Nothing handed on into a bubble leaves a bubble. -/
theorem HandedOn.idle {src old new : Latch} (h : HandedOn src old new) (hsrc : src.valid = false)
    (hold : old.valid = false) : new.valid = false := by
  cases h with
  | instruction live x y v a => cases live.symm.trans hsrc
  | bubble _ => exact hold

/-- A HALT after a hand-on is the HALT handed on, or was there and nothing was handed on. -/
theorem HandedOn.isHalt {src old new : Latch} (h : HandedOn src old new) (hn : new.isHalt) :
    src.isHalt ∨ (src.valid = false ∧ old.isHalt) := by
  cases h with
  | instruction _ x y v a => exact .inl hn
  | bubble idle => exact .inr ⟨idle, hn⟩

/-- A bubble that is moved into `old` leaves both latches as they are. -/
theorem Moves.of_bubble {src old : Latch} (h : src.valid = false) : Moves src old old src :=
  ⟨.bubble h, h, rfl, rfl⟩

/-- The writeback sub-step empties WB (R134). -/
theorem writebackStep_empties {s t : State} (hs : s.wb.stall = false) (h : writebackStep s = .next t) :
    t.wb = { s.wb with valid := false } := by
  cases hv : s.wb.valid with
  | true => rw [writebackStep_live hv hs h]
  | false =>
    cases (stageStep_idle .writeback s (.inl hv)).symm.trans h
    rw [← hv]

/-- The memory sub-step moves M to WB (R130). -/
theorem memoryStep_moves {s t : State} (hs : s.m.stall = false) (h : memoryStep s = .next t) :
    Moves s.m s.wb t.wb t.m := by
  cases hv : s.m.valid with
  | true =>
    obtain ⟨_, _, rfl⟩ | ⟨_, _, rfl⟩ | ⟨_, _, rfl⟩ := memoryStep_live hv hs h <;>
      exact ⟨.instruction hv _ _ _ _, rfl, rfl, rfl⟩
  | false =>
    cases (stageStep_idle .memory s (.inl hv)).symm.trans h
    exact .of_bubble hv

/-- The execute sub-step moves E to M (R125). -/
theorem executeStep_moves {s t : State} (hs : s.e.stall = false) (h : executeStep s = .next t) :
    Moves s.e s.m t.m t.e := by
  cases hv : s.e.valid with
  | true =>
    rw [executeStep_live hv hs] at h
    cases h
    obtain ⟨_, _, _, v, a, hr⟩ := executeResult_frame s.e.instr (atStage .execute s)
    rw [executeArm, hr]
    split <;> exact ⟨.instruction hv _ _ _ _, rfl, rfl, rfl⟩
  | false =>
    cases (stageStep_idle .execute s (.inl hv)).symm.trans h
    exact .of_bubble hv

/-- The execute sub-step leaves D, but for the flush of a transfer (R124). -/
theorem executeStep_flushes {s t : State} (hs : s.e.stall = false) (h : executeStep s = .next t) :
    t.d = { s.d with valid := s.d.valid && !eTransfers s } := by
  cases hv : s.e.valid with
  | true =>
    rw [executeStep_live hv hs] at h
    cases h
    obtain ⟨_, _, _, _, _, hr⟩ := executeResult_frame s.e.instr (atStage .execute s)
    rw [executeArm, hr]
    cases ht : transfers s.e.instr s.z s.n s.p <;> simp [eTransfers, hv, ht]
  | false =>
    cases (stageStep_idle .execute s (.inl hv)).symm.trans h
    simp [eTransfers, hv]

/-- A stalled decode does nothing (R115). -/
theorem decodeStep_stalled {s : State} (h : s.d.stall = true) : decodeStep s = .next s :=
  stageStep_idle .decode s (.inr h)

/-- The decode sub-step moves an unstalled D to E (R117). -/
theorem decodeStep_moves {s t : State} (hs : s.d.stall = false) (h : decodeStep s = .next t) :
    Moves s.d s.e t.e t.d := by
  cases hv : s.d.valid with
  | true =>
    obtain ⟨x, y, rfl, _⟩ := decodeStep_live hv hs h
    exact ⟨.instruction hv _ _ _ _, rfl, rfl, rfl⟩
  | false =>
    cases (stageStep_idle .decode s (.inl hv)).symm.trans h
    exact .of_bubble hv

/-! ### The invariant inside a cycle -/

/-- The part of the invariant that speaks of the latches and holds between any two sub-steps of a cycle, with
NUM_REGS = `n`. The stall bits of F and D are left out: only the hazard check sets them (R136). -/
structure State.Flow (n : Nat) (s : State) : Prop where
  noStallE : s.e.stall = false
  noStallM : s.m.stall = false
  noStallWb : s.wb.stall = false
  pendingEnabled : s.redirectPending = true → s.f.valid = true ∧ s.d.valid = false
  legalD : s.d.legal n
  legalE : s.e.legal n
  legalM : s.m.legal n
  legalWb : s.wb.legal n
  haltD : s.d.isHalt → s.f.valid = false
  haltE : s.e.isHalt → s.f.valid = false ∧ s.d.valid = false
  haltM : s.m.isHalt → s.f.valid = false ∧ s.d.valid = false ∧ s.e.valid = false
  haltWb : s.wb.isHalt → s.f.valid = false ∧ s.d.valid = false ∧ s.e.valid = false ∧ s.m.valid = false

/-- A block that satisfies the invariant is in this part of it. -/
theorem State.Inv.flow {s : State} (h : s.Inv) : s.Flow s.cfg.numRegs where
  noStallE := h.noStallE
  noStallM := h.noStallM
  noStallWb := h.noStallWb
  pendingEnabled := h.pendingEnabled
  legalD := h.legalD
  legalE := h.legalE
  legalM := h.legalM
  legalWb := h.legalWb
  haltD := h.haltD
  haltE := h.haltE
  haltM := h.haltM
  haltWb := h.haltWb

/-- With fetch enabled, no HALT is in flight (R113, R151). -/
theorem State.Flow.no_halt {n : Nat} {s : State} (h : s.Flow n) (hf : s.f.valid = true) :
    ¬s.d.isHalt ∧ ¬s.e.isHalt ∧ ¬s.m.isHalt ∧ ¬s.wb.isHalt := by
  have enabled : ¬s.f.valid = false := by simp [hf]
  exact ⟨fun hd => enabled (h.haltD hd), fun he => enabled (h.haltE he).1, fun hm => enabled (h.haltM hm).1,
    fun hw => enabled (h.haltWb hw).1⟩

/-- The writeback sub-step only empties WB. -/
theorem writebackStep_flow {n : Nat} {s t : State} (hs : s.Flow n) (h : writebackStep s = .next t) : t.Flow n := by
  have hwb := writebackStep_empties hs.noStallWb h
  obtain ⟨_, _, wb, _, rfl⟩ := writebackStep_frame h
  obtain rfl : wb = { s.wb with valid := false } := hwb
  exact { hs with legalWb := nofun, haltWb := fun hw => absurd hw (Latch.not_isHalt_of_bubble rfl) }

/-- The memory sub-step: a HALT in WB comes from M, behind which nothing younger is. -/
theorem memoryStep_flow {n : Nat} {s t : State} (hs : s.Flow n) (h : memoryStep s = .next t) : t.Flow n := by
  have hmoves := memoryStep_moves hs.noStallM h
  obtain ⟨_, m, wb, _, rfl⟩ := memoryStep_frame h
  obtain ⟨handed, emptied, leftStall, _⟩ : Moves s.m s.wb wb m := hmoves
  exact { hs with
    noStallM := leftStall.trans hs.noStallM
    noStallWb := handed.unstalled hs.noStallM hs.noStallWb
    legalM := Latch.legal_of_bubble emptied
    legalWb := handed.legal hs.legalM hs.legalWb
    haltM := fun hm => absurd hm (Latch.not_isHalt_of_bubble emptied)
    haltWb := fun hw => by
      obtain hm | ⟨_, hw⟩ := handed.isHalt hw
      · obtain ⟨hf, hd, he⟩ := hs.haltM hm
        exact ⟨hf, hd, he, emptied⟩
      · obtain ⟨hf, hd, he, _⟩ := hs.haltWb hw
        exact ⟨hf, hd, he, emptied⟩ }

/-- An instruction that leaves the sequential path is in E, and is no HALT. -/
theorem eTransfers_live {s : State} (h : eTransfers s = true) : s.e.valid = true ∧ s.e.op ≠ .halt := by
  obtain ⟨hv, ht⟩ := Bool.and_eq_true_iff.1 h
  refine ⟨hv, fun ho => ?_⟩
  have hi : s.e.instr = .halt := by rw [Latch.instr, Record.instr, ho]
  rw [hi] at ht
  cases ht

/-- The execute sub-step: a HALT in M comes from E, behind which nothing younger is; a redirect, which enables fetch
again, is made by another instruction, with no older HALT in flight. -/
theorem executeStep_flow {n : Nat} {s t : State} (hs : s.Flow n) (h : executeStep s = .next t) : t.Flow n := by
  have hmoves := executeStep_moves hs.noStallE h
  have hflush := executeStep_flushes hs.noStallE h
  have hsteers := executeStep_steers hs.noStallE h
  obtain ⟨_, _, _, pc, pending, f, d, e, m, _, rfl⟩ := executeStep_frame h
  obtain ⟨handed, emptied, leftStall, _⟩ : Moves s.e s.m m e := hmoves
  have noStallE : e.stall = false := leftStall.trans hs.noStallE
  have noStallM : m.stall = false := handed.unstalled hs.noStallE hs.noStallM
  have legalE : e.legal n := Latch.legal_of_bubble emptied
  have legalM : m.legal n := handed.legal hs.legalE hs.legalM
  have haltE : ¬e.isHalt := Latch.not_isHalt_of_bubble emptied
  obtain ⟨transfer, _, _, hf⟩ | ⟨stay, _, hpending, hf⟩ := hsteers
  · obtain ⟨live, notHalt⟩ := eTransfers_live transfer
    obtain rfl : d = { s.d with valid := false } := hflush.trans (by simp [transfer])
    obtain rfl : f = { s.f with valid := true } := hf
    have haltM : ¬m.isHalt := fun hm => by
      obtain ⟨_, ho⟩ | ⟨idle, _⟩ := handed.isHalt hm
      · exact notHalt ho
      · cases live.symm.trans idle
    have haltWb : ¬s.wb.isHalt := fun hw => by
      obtain ⟨_, _, idle, _⟩ := hs.haltWb hw
      cases live.symm.trans idle
    exact { hs with
      noStallE, noStallM, legalE, legalM
      pendingEnabled := fun _ => ⟨rfl, rfl⟩
      legalD := nofun
      haltD := fun hd => absurd hd (Latch.not_isHalt_of_bubble rfl)
      haltE := fun he => absurd he haltE
      haltM := fun hm => absurd hm haltM
      haltWb := fun hw => absurd hw haltWb }
  · obtain rfl : d = s.d := hflush.trans (by simp [stay])
    obtain rfl : f = s.f := hf
    obtain rfl : pending = s.redirectPending := hpending
    exact { hs with
      noStallE, noStallM, legalE, legalM
      haltE := fun he => absurd he haltE
      haltM := fun hm => by
        obtain he | ⟨_, hm⟩ := handed.isHalt hm
        · obtain ⟨hf, hd⟩ := hs.haltE he
          exact ⟨hf, hd, emptied⟩
        · obtain ⟨hf, hd, _⟩ := hs.haltM hm
          exact ⟨hf, hd, emptied⟩
      haltWb := fun hw => by
        obtain ⟨hf, hd, he, hm⟩ := hs.haltWb hw
        exact ⟨hf, hd, emptied, handed.idle he hm⟩ }

/-- The decode sub-step: a HALT in E comes from D, behind which nothing is fetched. -/
theorem decodeStep_flow {n : Nat} {s t : State} (hs : s.Flow n) (h : decodeStep s = .next t) : t.Flow n := by
  cases hstall : s.d.stall with
  | true =>
    cases (stageStep_idle .decode s (.inr hstall)).symm.trans h
    exact hs
  | false =>
    have hmoves := decodeStep_moves hstall h
    obtain ⟨d, e, _, rfl⟩ := decodeStep_frame h
    obtain ⟨handed, emptied, _, _⟩ : Moves s.d s.e e d := hmoves
    exact { hs with
      noStallE := handed.unstalled hstall hs.noStallE
      pendingEnabled := fun hp => ⟨(hs.pendingEnabled hp).1, emptied⟩
      legalD := Latch.legal_of_bubble emptied
      legalE := handed.legal hs.legalD hs.legalE
      haltD := fun hd => absurd hd (Latch.not_isHalt_of_bubble emptied)
      haltE := fun he => by
        obtain hd | ⟨_, he⟩ := handed.isHalt he
        · exact ⟨hs.haltD hd, emptied⟩
        · exact ⟨(hs.haltE he).1, emptied⟩
      haltM := fun hm => by
        obtain ⟨hf, hd, he⟩ := hs.haltM hm
        exact ⟨hf, emptied, handed.idle hd he⟩
      haltWb := fun hw => by
        obtain ⟨hf, hd, he, hm⟩ := hs.haltWb hw
        exact ⟨hf, emptied, handed.idle hd he, hm⟩ }

/-- The read of an enabled fetch: the record into F and D; HALT disables fetch and NOP leaves D empty (R110 to R114). -/
structure Fetches (r : Record) (s t : State) : Prop where
  latchedPc : t.f.pc = s.pc
  latchedOp : t.f.op = r.op
  enabled : t.f.valid = (r.op != .halt)
  live : t.d.valid = (r.op != .nop)
  instr : t.d.instr = r.instr

/-- A read that answers a next state fetched the record at pc. -/
theorem fetchRead_fetches {s t : State} (hv : s.f.valid = true) (h : fetchRead s = .next t) :
    ∃ r, codeRead s s.pc = some r ∧ Fetches r s t := by
  obtain ⟨r, hr, _⟩ := fetchRead_next h
  refine ⟨r, hr, ?_⟩
  rw [fetchRead_defined hr] at h
  cases h
  unfold fetchPart
  split
  case h_1 ho =>
    have ho : r.op = .halt := (Record.instr_op r).symm.trans ho
    exact ⟨rfl, rfl, by simp [ho], by simp [ho, hv, atStage], rfl⟩
  case h_2 ho =>
    have ho : r.op = .nop := (Record.instr_op r).symm.trans ho
    exact ⟨rfl, rfl, by simp [ho, hv, atStage], by simp [ho], rfl⟩
  case h_3 hhalt hnop =>
    rw [Record.instr_op] at hhalt hnop
    have hhalt : r.op ≠ .halt := hhalt
    have hnop : r.op ≠ .nop := hnop
    exact ⟨rfl, rfl, by simp [hhalt, hv, atStage], by simp [hnop, hv, atStage], rfl⟩

/-- The fetch sub-step: it fills D only while fetch is enabled, so with no HALT in flight, and a HALT it fetches
disables it. -/
theorem fetchStep_flow {n : Nat} {s t : State} (hs : s.Flow n) (hbtb : ∀ x ∈ s.btb, x.tag = none)
    (hcode : ∀ r ∈ s.code, r.instr.wf n = true) (h : fetchStep s = .next t) : t.Flow n := by
  obtain ⟨_, rfl⟩ | ⟨_, _, rfl⟩ | ⟨_, _, _, rfl⟩ | ⟨_, hv, hp, u, hb, hread⟩ := fetchStep_next h
  · exact { hs with }
  · exact hs
  · exact { hs with pendingEnabled := nofun }
  · cases (btbPredictStep_of_no_tag hbtb).symm.trans hb
    obtain ⟨r, hr, hfetch⟩ := fetchRead_fetches hv hread
    obtain ⟨_, haltE, haltM, haltWb⟩ := hs.no_halt hv
    obtain ⟨f, d, _, rfl⟩ := fetchRead_frame hread
    obtain ⟨_, _, enabled, live, instr⟩ := hfetch
    have dOp : d.op = r.op := by rw [← Latch.instr_op, instr, Record.instr_op]
    exact { hs with
      pendingEnabled := fun pending => by cases hp.symm.trans pending
      legalD := fun hd => by
        rw [live] at hd
        rw [instr, dOp]
        exact ⟨hcode r (codeAt_mem hr), bne_iff_ne.1 hd⟩
      haltD := fun ⟨_, ho⟩ => by rw [enabled, ← dOp, ho]; rfl
      haltE := fun he => absurd he haltE
      haltM := fun hm => absurd hm haltM
      haltWb := fun hw => absurd hw haltWb }

/-! ### What the sub-steps before the fetch do to a block -/

/-- Latch `new`, in which the instruction that was in `src` now is: a bubble where `src` was one, and then with the pc
that `old` had there. -/
structure Advanced (src old new : Latch) : Prop where
  valid : new.valid = src.valid
  pc : new.pc = if src.valid then src.pc else old.pc
  op : src.valid = true → new.op = src.op

/-- A hand-on into a latch that its own sub-step has emptied. -/
theorem HandedOn.advanced {src old left new : Latch} (h : HandedOn src left new) (hleft : left.valid = false)
    (hpc : left.pc = old.pc) : Advanced src old new := by
  cases h with
  | instruction live x y v a => exact ⟨rfl, by simp [live], fun _ => rfl⟩
  | bubble idle => exact ⟨hleft.trans idle.symm, by simp [idle, hpc], fun live => by cases live.symm.trans idle⟩

/-- The latch D with its instruction flushed if the one in E leaves the sequential path (R124). -/
def flushedD (s : State) : Latch := { s.d with valid := s.d.valid && !eTransfers s }

/-- Without a transfer in E, nothing is flushed. -/
theorem flushedD_of_stay {s : State} (h : eTransfers s = false) : flushedD s = s.d := by
  rw [flushedD, h, Bool.not_false, Bool.and_true]

/-- How the writeback, memory, execute and decode sub-steps of a cycle from `s` leave the block, `d`: the instructions in
M, E and, unless it is stalled or flushed, D each one stage further, and the fetch side as it was or redirected. -/
structure OlderStages (s d : State) : Prop where
  cfg : d.cfg = s.cfg
  code : d.code = s.code
  btb : d.btb = s.btb
  clock : d.clock = s.clock
  status : d.status = s.status
  wb : Advanced s.m s.wb d.wb
  m : Advanced s.e s.m d.m
  stalled : s.d.stall = true → d.e.valid = false ∧ d.d = flushedD s
  free : s.d.stall = false → Advanced (flushedD s) s.e d.e ∧ d.d.valid = false ∧ d.d.stall = false
  f : d.f = { s.f with valid := s.f.valid || eTransfers s }
  pc : d.pc = if eTransfers s then transferTarget s.e.instr s.e.pc s.e.rs1Value else s.pc
  pending : d.redirectPending = (s.redirectPending || eTransfers s)

/-- The writeback and memory sub-steps: the instruction in M is in WB, and M is empty. -/
theorem memoryStep_after_writeback_moves {n : Nat} {s a b : State} (hs : s.Flow n) (hw : writebackStep s = .next a)
    (hm : memoryStep a = .next b) :
    Advanced s.m s.wb b.wb ∧ b.m.valid = false ∧ b.m.pc = s.m.pc := by
  have hwb := writebackStep_empties hs.noStallWb hw
  obtain ⟨_, _, _, _, ha⟩ := writebackStep_frame hw
  have hsame : a.m = s.m := by rw [ha]
  obtain ⟨handed, emptied, _, leftPc⟩ := memoryStep_moves (hsame ▸ hs.noStallM) hm
  rw [hsame] at handed leftPc
  rw [hwb] at handed
  exact ⟨handed.advanced rfl rfl, emptied, leftPc⟩

/-- The writeback, memory and execute sub-steps leave D, but for the flush of a transfer. -/
theorem executeStep_leaves_flushedD {n : Nat} {s a b c : State} (hs : s.Flow n) (hw : writebackStep s = .next a)
    (hm : memoryStep a = .next b) (he : executeStep b = .next c) : c.d = flushedD s := by
  obtain ⟨_, _, _, _, _, _, rfl⟩ := memoryStep_after_writeback_frame hw hm
  have flushes := executeStep_flushes (by exact hs.noStallE) he
  exact flushes

/-- The four sub-steps before the fetch, put together (R100). -/
theorem olderStages {n : Nat} {s a b c d : State} (hs : s.Flow n) (hw : writebackStep s = .next a)
    (hm : memoryStep a = .next b) (he : executeStep b = .next c) (hd : decodeStep c = .next d) : OlderStages s d := by
  obtain ⟨toWb, emptyM, pcM⟩ := memoryStep_after_writeback_moves hs hw hm
  have flushes := executeStep_leaves_flushedD hs hw hm he
  obtain ⟨_, _, _, m, wb, _, rfl⟩ := memoryStep_after_writeback_frame hw hm
  have moves := executeStep_moves (by exact hs.noStallE) he
  have steers := executeStep_steers (by exact hs.noStallE) he
  obtain ⟨_, _, _, pc, pending, f, d', e, m', _, rfl⟩ := executeStep_frame he
  obtain ⟨toM, emptyE, _, pcE⟩ : Moves s.e m m' e := moves
  obtain rfl : d' = flushedD s := flushes
  have steered : f = { s.f with valid := s.f.valid || eTransfers s } ∧
      pc = (if eTransfers s then transferTarget s.e.instr s.e.pc s.e.rs1Value else s.pc) ∧
      pending = (s.redirectPending || eTransfers s) := by
    obtain ⟨ht, hpc, hpending, hf⟩ | ⟨ht, hpc, hpending, hf⟩ := steers
    · have ht : eTransfers s = true := ht
      rw [ht]
      exact ⟨hf.trans (by simp), hpc, hpending.trans (by simp)⟩
    · have ht : eTransfers s = false := ht
      rw [ht]
      exact ⟨hf.trans (by simp), hpc, hpending.trans (by simp)⟩
  obtain ⟨hf, hpc, hpending⟩ := steered
  have stalled (hstall : s.d.stall = true) : d.e.valid = false ∧ d.d = flushedD s := by
    cases (decodeStep_stalled (by exact hstall)).symm.trans hd
    exact ⟨emptyE, rfl⟩
  have free (hstall : s.d.stall = false) :
      Advanced (flushedD s) s.e d.e ∧ d.d.valid = false ∧ d.d.stall = false := by
    obtain ⟨toE, emptyD, stallD, _⟩ := decodeStep_moves (by exact hstall) hd
    exact ⟨toE.advanced emptyE pcE, emptyD, stallD.trans hstall⟩
  obtain ⟨_, _, _, rfl⟩ := decodeStep_frame hd
  exact {
    cfg := rfl
    code := rfl
    btb := rfl
    clock := rfl
    status := rfl
    wb := toWb
    m := toM.advanced emptyM pcM
    stalled
    free
    f := hf
    pc := hpc
    pending := hpending }

/-! ### Every step keeps the invariant -/

/-- The fetch sub-step of a block faults only where an enabled, free fetch finds no record at pc (R110). -/
theorem fetchStep_fault {s : State} {x : Fault} (hbtb : ∀ y ∈ s.btb, y.tag = none) (h : fetchStep s = .fault x) :
    s.f.stall = false ∧ codeRead s s.pc = none ∧ x = .fetchOutOfRange s.pc := by
  unfold fetchStep at h
  rw [btbPredictStep_of_no_tag hbtb] at h
  split at h
  · cases h
  case isFalse hstall =>
    split at h
    · cases h
    · split at h
      · cases h
      · cases hread : codeRead s s.pc with
        | some r => cases (fetchRead_defined hread).symm.trans h
        | none =>
          cases (fetchRead_undefined hread).symm.trans h
          exact ⟨Bool.eq_false_iff.2 hstall, rfl, rfl⟩

/-- The number of registers is kept by a cycle (10_state.md R20). -/
theorem step_regs_length {s t : State} (hr : s.status = .running) (h : step s = .next t) :
    t.regs.length = s.regs.length := by
  obtain ⟨a, hw, hregs, _⟩ := (step_cycleRun hr h).regs
  rw [hregs, writebackStep_regs_length hw]

/-- A cycle keeps the canonical form of data memory and lists no word beyond DATA_WORDS: a STORE writes in range only
(20_memory.md R65). -/
theorem step_dm_form {s t : State} (hinv : s.Inv) (hr : s.status = .running) (h : step s = .next t) :
    t.dm.wf = true ∧ ∀ x ∈ t.dm, x.1 < s.cfg.dataWords := by
  obtain ⟨⟨_, _, _, inRange⟩, ht⟩ | ⟨_, ht⟩ := (step_cycleRun hr h).dm
  · rw [ht]
    refine ⟨write_wf _ _ hinv.dmForm, fun x hx => ?_⟩
    obtain rfl | hx := mem_write hx
    · obtain ⟨_, hlt⟩ := dataInRange_iff.1 inRange
      show (s32 s.m.memoryAddress).toNat < s.cfg.dataWords
      omega
    · exact hinv.dmRange x hx
  · rw [ht]
    exact ⟨hinv.dmForm, hinv.dmRange⟩

/-- Of the invariant, a cycle keeps what speaks of parameters, code, registers, data memory and the BTB; the latches and
the sequencer are left to show. -/
theorem State.Inv.of_flow {s t : State} (hinv : s.Inv) (hr : s.status = .running) (h : step s = .next t)
    (flow : t.Flow s.cfg.numRegs) (stallPair : t.d.stall = t.f.stall) (stallIsHazard : t.f.stall = hazardCondition t)
    (seqRests : t.seq = Sequencer.rest) : t.Inv := by
  obtain ⟨hcode, hbtb, hcfg⟩ := codeAndBtbNeverChange s t h
  obtain ⟨dmForm, dmRange⟩ := step_dm_form hinv hr h
  rw [← hcfg] at flow dmRange
  exact { flow with
    cfgLegal := hcfg ▸ hinv.cfgLegal
    codeFits := by rw [hcfg, hcode]; exact hinv.codeFits
    codeLegal := by rw [hcfg, hcode]; exact hinv.codeLegal
    regCount := by rw [hcfg, step_regs_length hr h]; exact hinv.regCount
    dmForm, dmRange
    btbCold := by rw [hcfg, hbtb]; exact hinv.btbCold
    stallPair, stallIsHazard, seqRests }

/-- The state before the fetch sub-step keeps the latch part of the invariant. -/
theorem olderStages_flow {n : Nat} {s a b c d : State} (hs : s.Flow n) (hw : writebackStep s = .next a)
    (hm : memoryStep a = .next b) (he : executeStep b = .next c) (hd : decodeStep c = .next d) : d.Flow n :=
  decodeStep_flow (executeStep_flow (memoryStep_flow (writebackStep_flow hs hw) hm) he) hd

/-- With D empty, no hazard stalls the front of the pipeline (R136). -/
theorem hazardCondition_of_no_d {s : State} (h : s.d.valid = false) : hazardCondition s = false := by
  simp [hazardCondition, h]

/-- With E empty, no hazard stalls the front of the pipeline (R136). -/
theorem hazardCondition_of_no_e {s : State} (h : s.e.valid = false) : hazardCondition s = false := by
  simp [hazardCondition, h]

/-- A cycle keeps the invariant, however it ends: a data fault leaves the latches but WB, a fetch fault leaves D empty and
unstalled, and a cycle that completes ends with a hazard check. -/
theorem step_inv {s t : State} (hinv : s.Inv) (hr : s.status = .running) (h : step s = .next t) : t.Inv := by
  cases step_cycleRun hr h with
  | dataFault hw hm ht =>
    subst ht
    have flow := writebackStep_flow hinv.flow hw
    obtain ⟨_, _, _, _, rfl⟩ := writebackStep_frame hw
    exact hinv.of_flow hr h { flow with } hinv.stallPair hinv.stallIsHazard rfl
  | fetchFault hw hm he hd hf ht =>
    subst ht
    have flow := olderStages_flow hinv.flow hw hm he hd
    have older := olderStages hinv.flow hw hm he hd
    obtain ⟨hfree, _⟩ := fetchStep_fault (older.btb ▸ hinv.no_tag) hf
    have hfreeS : s.f.stall = false := by rw [older.f] at hfree; exact hfree
    obtain ⟨_, emptyD, stallD⟩ := older.free (hinv.stallPair.trans hfreeS)
    exact hinv.of_flow hr h { flow with } (stallD.trans hfree.symm)
      (hfree.trans (hazardCondition_of_no_d (by exact emptyD)).symm) rfl
  | completes hw hm he hd hf ht =>
    subst ht
    have flow := olderStages_flow hinv.flow hw hm he hd
    have older := olderStages hinv.flow hw hm he hd
    have flow := fetchStep_flow flow (older.btb ▸ hinv.no_tag) (older.code ▸ hinv.codeLegal) hf
    exact hinv.of_flow hr h { flow with } rfl rfl rfl

/-! ### The fetch sub-step that reads nothing (R106 to R108) -/

/-- A stalled fetch only re-checks the hazard (R106). -/
theorem fetchStep_stalled {s : State} (h : s.f.stall = true) : fetchStep s = .next (hazardCheck s) := by
  simp [fetchStep, h]

/-- A disabled fetch does nothing (R107). -/
theorem fetchStep_disabled {s : State} (hs : s.f.stall = false) (hv : s.f.valid = false) : fetchStep s = .next s := by
  simp [fetchStep, hs, hv]

/-- A fetch with a redirect pending spends its cycle on clearing it (R108). -/
theorem fetchStep_delayed {s : State} (hs : s.f.stall = false) (hv : s.f.valid = true)
    (hp : s.redirectPending = true) : fetchStep s = .next { s with redirectPending := false } := by
  simp [fetchStep, hs, hv, hp]

/-- A fetch with a redirect pending reads nothing, and keeps the redirect pending exactly if it is stalled. -/
theorem fetchStep_pending {s t : State} (hv : s.f.valid = true) (hp : s.redirectPending = true)
    (h : fetchStep s = .next t) :
    t.pc = s.pc ∧ t.f.valid = true ∧ t.d.valid = s.d.valid ∧ t.redirectPending = s.f.stall := by
  cases hs : s.f.stall with
  | true =>
    cases (fetchStep_stalled hs).symm.trans h
    exact ⟨rfl, hv, rfl, hp⟩
  | false =>
    cases (fetchStep_delayed hs hv hp).symm.trans h
    exact ⟨rfl, hv, rfl, rfl⟩

/-! ### A cycle of a block that ends without a fault -/

/-- The sub-steps before the fetch, the fetch, and the end of the cycle. -/
theorem cleanCycle_older {s t : State} (hinv : s.Inv) (h : Claims.cleanCycle s t) :
    ∃ d u, OlderStages s d ∧ fetchStep d = .next u ∧ t = endCycle (hazardCheck u) := by
  obtain ⟨a, b, c, d, u, hw, hm, he, hd, hf, ht⟩ := cleanCycle_subSteps h
  exact ⟨d, u, olderStages hinv.flow hw hm he hd, hf, ht⟩

/-- The cycle ends in a state with the invariant. -/
theorem cleanCycle_inv {s t : State} (hinv : s.Inv) (h : Claims.cleanCycle s t) : t.Inv := by
  obtain ⟨hr, hstep, _⟩ := h
  exact step_inv hinv hr hstep

/-- The instructions in M and E are one stage further after the cycle (R125, R130). -/
theorem cleanCycle_advances {s t : State} (hinv : s.Inv) (h : Claims.cleanCycle s t) :
    Advanced s.m s.wb t.wb ∧ Advanced s.e s.m t.m := by
  obtain ⟨d, u, older, hf, rfl⟩ := cleanCycle_older hinv h
  obtain ⟨_, _, _, _, _, rfl⟩ := fetchStep_frame hf
  exact ⟨older.wb, older.m⟩

/-- An instruction leaves the sequential path only from a valid E. -/
theorem eTransfers_of_no_e {s : State} (h : s.e.valid = false) : eTransfers s = false := by
  simp [eTransfers, h]

/-- With E empty, a block's fetch is not stalled (R136). -/
theorem State.Inv.unstalled_of_no_e {s : State} (h : s.Inv) (he : s.e.valid = false) : s.f.stall = false :=
  h.stallIsHazard.trans (hazardCondition_of_no_e he)

/-- A block whose fetch is stalled holds instructions in E and D (R136). -/
theorem State.Inv.live_of_stalled {s : State} (h : s.Inv) (hs : s.f.stall = true) :
    s.e.valid = true ∧ s.d.valid = true := by
  have hz : hazardCondition s = true := h.stallIsHazard.symm.trans hs
  simp only [hazardCondition, Bool.and_eq_true] at hz
  obtain ⟨⟨⟨⟨he, hd⟩, _⟩, _⟩, _⟩ := hz
  exact ⟨he, hd⟩

/-- Where D is empty or flushed, nothing reaches E, and D stays empty until a fetch. -/
theorem OlderStages.empty_of_flushed {s d : State} (older : OlderStages s d) (h : (flushedD s).valid = false) :
    d.d.valid = false ∧ d.e.valid = false := by
  cases hs : s.d.stall with
  | true =>
    obtain ⟨emptyE, hd⟩ := older.stalled hs
    exact ⟨hd ▸ h, emptyE⟩
  | false =>
    obtain ⟨toE, emptyD, _⟩ := older.free hs
    exact ⟨emptyD, toE.valid.trans h⟩

/-- A cycle with a redirect made or still pending: pc stays at the target, fetch is enabled, D and E are empty, and the
redirect is pending afterwards exactly if the cycle was stalled (R108, R124). -/
theorem cleanCycle_redirecting {s t : State} (hinv : s.Inv) (h : Claims.cleanCycle s t)
    (hp : (s.redirectPending || eTransfers s) = true) :
    t.pc = (if eTransfers s then transferTarget s.e.instr s.e.pc s.e.rs1Value else s.pc) ∧ t.f.valid = true ∧
      t.d.valid = false ∧ t.e.valid = false ∧ t.redirectPending = s.f.stall := by
  obtain ⟨d, u, older, hf, rfl⟩ := cleanCycle_older hinv h
  have front : (flushedD s).valid = false ∧ (s.f.valid || eTransfers s) = true := by
    cases ht : eTransfers s with
    | true => simp [flushedD, ht]
    | false =>
      rw [ht, Bool.or_false] at hp
      obtain ⟨hv, hd⟩ := hinv.pendingEnabled hp
      simp [flushedD, hv, hd]
  obtain ⟨flushed, enabled⟩ := front
  obtain ⟨emptyD, emptyE⟩ := older.empty_of_flushed flushed
  have hv : d.f.valid = true := by rw [older.f]; exact enabled
  have hstall : d.f.stall = s.f.stall := by rw [older.f]
  obtain ⟨hpc, hfetch, hd, hpending⟩ := fetchStep_pending hv (older.pending.trans hp) hf
  obtain ⟨_, _, _, _, _, rfl⟩ := fetchStep_frame hf
  exact ⟨hpc.trans older.pc, hfetch, hd.trans emptyD, emptyE, hpending.trans hstall⟩

/-- A cycle whose fetch is enabled, free and not steered away reads the record at pc into F (R110, R111). -/
theorem cleanCycle_reads {s t : State} (hinv : s.Inv) (h : Claims.cleanCycle s t) (ht : eTransfers s = false)
    (hv : s.f.valid = true) (hs : s.f.stall = false) (hp : s.redirectPending = false) :
    ∃ r, codeRead s s.pc = some r ∧ t.f.pc = s.pc ∧ t.f.op = r.op ∧ t.pc = wrap32 (s32 s.pc + s.cfg.stride) := by
  obtain ⟨_, _, advance, _⟩ := fetchPointerMovesOnlyByFetchOrTransfer s t hinv h
  have hpc := advance ht hv hs hp
  obtain ⟨d, u, older, hf, rfl⟩ := cleanCycle_older hinv h
  have hdf : d.f = s.f := by rw [older.f, ht, Bool.or_false]
  have hdpc : d.pc = s.pc := by rw [older.pc, ht]; rfl
  have hdp : d.redirectPending = false := by rw [older.pending, ht, hp]; rfl
  rw [fetchStep_reads (hdf ▸ hv) (hdf ▸ hs) hdp (older.btb ▸ hinv.no_tag)] at hf
  obtain ⟨r, hr, fetched⟩ := fetchRead_fetches (hdf ▸ hv) hf
  rw [codeRead, older.cfg, older.code, hdpc] at hr
  exact ⟨r, hr, fetched.latchedPc.trans hdpc, fetched.latchedOp, hpc⟩

/-- The five sub-steps put together into a step (R100, R101). -/
theorem step_of_subSteps {s a b c d u : State} (hr : s.status = .running) (hcode : s.code ≠ [])
    (hw : writebackStep s = .next a) (hm : memoryStep a = .next b) (he : executeStep b = .next c)
    (hd : decodeStep c = .next d) (hf : fetchStep d = .next u) : step s = .next (endCycle (hazardCheck u)) := by
  calc step s
      = runSubSteps stageOrder s := by simp [step, hr, hcode, cycle]
    _ = runSubSteps [.memory, .execute, .decode, .fetch] a := runSubSteps_cons hw
    _ = runSubSteps [.execute, .decode, .fetch] b := runSubSteps_cons hm
    _ = runSubSteps [.decode, .fetch] c := runSubSteps_cons he
    _ = runSubSteps [.fetch] d := runSubSteps_cons hd
    _ = .next (endCycle (hazardCheck u)) := runSubSteps_cons hf

/-- The writeback sub-step of a HALT: it is retired and counted, and the halt signalled (R135). -/
theorem writebackStep_halt {s : State} (hv : s.wb.valid = true) (hs : s.wb.stall = false) (ho : s.wb.op = .halt) :
    writebackStep s = .next (signalHalt (retire (atStage .writeback s))) := by
  rw [writebackStep, stageStep_live _ _ hv hs, exec_writeback _ rfl, Latch.instr_op, ho]
  rfl

/-- A hazard check that finds no hazard leaves an unstalled front of the pipeline as it is. -/
theorem hazardCheck_of_no_hazard {s : State} (h : hazardCondition s = false) (hf : s.f.stall = false)
    (hd : s.d.stall = false) : hazardCheck s = s := by
  have sameF : ({ s.f with stall := false } : Latch) = s.f := by rw [← hf]
  have sameD : ({ s.d with stall := false } : Latch) = s.d := by rw [← hd]
  rw [hazardCheck, h, sameF, sameD]

/-! ### The register values that the instructions in flight leave (R152) -/

/-- A register just set reads as its new value. -/
theorem Arch.reg_setReg_same {a : Arch} {r : Reg} (v : Word) (h : r.toNat < a.regs.length) :
    (a.setReg r v).reg r = v := by
  simp [Arch.reg, Arch.setReg, h]

/-- Setting one register leaves the others. -/
theorem Arch.reg_setReg_ne {a : Arch} {r q : Reg} (v : Word) (h : r ≠ q) : (a.setReg r v).reg q = a.reg q := by
  have hne : r.toNat ≠ q.toNat := fun he => h (BitVec.eq_of_toNat_eq he)
  simp [Arch.reg, Arch.setReg, List.getElem?_set_ne hne]

/-- Setting a register keeps their number. -/
@[simp] theorem Arch.setReg_regs_length (a : Arch) (r : Reg) (v : Word) :
    (a.setReg r v).regs.length = a.regs.length := List.length_set

/-- Z is no register. -/
@[simp] theorem Arch.setRegZ_reg (a : Arch) (r q : Reg) (v : Word) : (a.setRegZ r v).reg q = (a.setReg r v).reg q := rfl

/-- The destination of a legal register writer is in the file (30_encoding.md R86). -/
theorem Latch.legal.rd_lt {l : Latch} {n : Nat} (h : l.legal n) (hv : l.valid = true) (hw : isWriter l.op = true) :
    l.rd.toNat < n := by
  have hmem := record_rd_mem_usedRegs (i := l.instr) (by rwa [Latch.instr_op])
  rw [Latch.instr_rd hw] at hmem
  exact wf_iff.1 (h hv).1 _ hmem

/-- The first source of a legal instruction is in the file (30_encoding.md R86). -/
theorem Latch.legal.rs1_lt {l : Latch} {n : Nat} (h : l.legal n) (hv : l.valid = true) (hr : readsRs1 l.op = true) :
    l.rs1.toNat < n := by
  have hmem := record_rs1_mem_usedRegs (i := l.instr) (by rwa [Latch.instr_op])
  rw [Latch.instr_rs1 hr] at hmem
  exact wf_iff.1 (h hv).1 _ hmem

/-- The second source of a legal instruction is in the file (30_encoding.md R86). -/
theorem Latch.legal.rs2_lt {l : Latch} {n : Nat} (h : l.legal n) (hv : l.valid = true) (hr : readsRs2 l.op = true) :
    l.rs2.toNat < n := by
  have hmem := record_rs2_mem_usedRegs (i := l.instr) (by rwa [Latch.instr_op])
  rw [Latch.instr_rs2 hr] at hmem
  exact wf_iff.1 (h hv).1 _ hmem

/-- The effect of an instruction leaves every register but the destination of a register writer. -/
theorem effect_reg_other {c : Config} {at0 x y : Word} {i : Instr} {a b : Arch} {r : Reg}
    (h : effect c at0 i x y a = some b) (hr : isWriter i.op = true → i.record.rd ≠ r) : b.reg r = a.reg r := by
  cases i with
  | add | sub | and | or | xor | addl | subl | movc | jal =>
    cases h
    exact Arch.reg_setReg_ne _ (hr rfl)
  | load =>
    obtain ⟨_, h⟩ := Option.ite_none_right_eq_some.1 h
    cases h
    exact Arch.reg_setReg_ne _ (hr rfl)
  | store =>
    obtain ⟨_, h⟩ := Option.ite_none_right_eq_some.1 h
    cases h
    rfl
  | cmp | jump | nop | halt =>
    cases h
    rfl
  | bz | bnz | bp | bnp | bn | bnn =>
    cases h
    split <;> rfl

/-- The effect of a register writer other than LOAD gives its destination what the execute arm leaves as the result. -/
theorem effect_reg_rd {s : State} {i : Instr} {a b : Arch}
    (h : effect s.cfg s.e.pc i s.e.rs1Value s.e.rs2Value a = some b) (hw : isWriter i.op = true) (hl : i.op ≠ .load)
    (hrd : i.record.rd.toNat < a.regs.length) : b.reg i.record.rd = (executeResult i s).e.resultBuffer := by
  cases i with
  | add | sub | and | or | xor | addl | subl | movc | jal =>
    cases h
    exact Arch.reg_setReg_same _ hrd
  | load => exact absurd rfl hl
  | _ => cases hw

/-- The registers after the writeback sub-step are those with the instruction in WB completed. -/
theorem writebackStep_completes {s t : State} (hs : s.wb.stall = false) (h : writebackStep s = .next t) :
    t.regs = (completeWb s.wb (visible s)).regs := by
  cases hv : s.wb.valid with
  | true =>
    rw [writebackStep_live hv hs h, completeWb, hv, Bool.true_and]
    split <;> rfl
  | false =>
    cases (stageStep_idle .writeback s (.inl hv)).symm.trans h
    simp [completeWb, hv, visible]

/-- Completing the instruction in WB writes no data memory. -/
theorem completeWb_dm (l : Latch) (a : Arch) : (completeWb l a).dm = a.dm := by
  unfold completeWb
  split <;> rfl

/-- A register of the file reads as the software-visible state with the same registers has it. -/
theorem readReg_of_regs {s : State} {a : Arch} {r : Reg} (h : s.regs = a.regs) (hr : r.toNat < s.regs.length) :
    readReg s r = some (a.reg r) := by
  rw [readReg, Arch.reg, ← h, List.getD_eq_getElem _ _ hr, List.getElem?_eq_getElem hr]

/-- Completing the instruction in M changes a register only to what the memory sub-step leaves in WB for it (R118). -/
theorem memoryStep_completes {s t : State} {a b : Arch} {n : Nat} (hs : s.m.stall = false) (hwb : s.wb.valid = false)
    (hl : s.m.legal n) (hlen : a.regs.length = n) (hdm : a.dm = s.dm) (h : memoryStep s = .next t)
    (hb : completeM s.cfg s.m a = some b) (r : Reg) :
    b.reg r = if forwardsFromWb t r then t.wb.resultBuffer else a.reg r := by
  cases hv : s.m.valid with
  | false =>
    cases (stageStep_idle .memory s (.inl hv)).symm.trans h
    rw [completeM, hv] at hb
    cases hb
    simp [forwardsFromWb, hwb]
  | true =>
    have written (v : Word) (hw : isWriter s.m.op = true) :
        (a.setReg s.m.rd v).reg r = if s.m.rd = r then v else a.reg r := by
      split
      case isTrue hr => exact hr ▸ Arch.reg_setReg_same v (hlen ▸ hl.rd_lt hv hw)
      case isFalse hr => exact Arch.reg_setReg_ne v hr
    simp only [completeM, hv] at hb
    obtain ⟨ho, hin, rfl⟩ | ⟨ho, hin, rfl⟩ | ⟨hload, hstore, rfl⟩ := memoryStep_live hv hs h
    · simp only [ho, hin] at hb
      cases hb
      simp [forwardsFromWb, hv, ho, isWriter, hdm, written]
    · simp only [ho, hin] at hb
      cases hb
      simp [forwardsFromWb, ho, isWriter, Arch.reg]
    · simp only [hload, hstore] at hb
      cases hb
      cases hw : isWriter s.m.op with
      | true => simp [forwardsFromWb, hv, hw, written, atStage]
      | false => simp [forwardsFromWb, hw, atStage]

/-- Completing the instruction in M keeps the number of registers. -/
theorem completeM_regs_length {c : Config} {l : Latch} {a b : Arch} (h : completeM c l a = some b) :
    b.regs.length = a.regs.length := by
  unfold completeM at h
  repeat' split at h
  all_goals cases h
  all_goals simp

/-- The result that the execute sub-step hands on to M is that of the execute arm, in the latch of the same mnemonic and
destination. -/
theorem executeStep_result {s t : State} (hv : s.e.valid = true) (hs : s.e.stall = false)
    (h : executeStep s = .next t) :
    t.m.valid = true ∧ t.m.op = s.e.op ∧ t.m.rd = s.e.rd ∧
      t.m.resultBuffer = (executeResult s.e.instr (atStage .execute s)).e.resultBuffer := by
  rw [executeStep_live hv hs] at h
  cases h
  obtain ⟨_, _, _, _, _, hr⟩ := executeResult_frame s.e.instr (atStage .execute s)
  rw [executeArm, hr]
  split <;> exact ⟨hv, rfl, rfl, rfl⟩

/-- Completing the instruction in E changes a register only to what the execute sub-step leaves in M for it, but for the
destination of a LOAD, which M does not forward (R118, R120). -/
theorem executeStep_completes {s t : State} {a b : Arch} {n : Nat} (hs : s.e.stall = false) (hm : s.m.valid = false)
    (hl : s.e.legal n) (hlen : a.regs.length = n) (h : executeStep s = .next t) (hb : completeE s.cfg s.e a = some b)
    {r : Reg} (hload : ¬(s.e.valid = true ∧ s.e.op = .load ∧ s.e.rd = r)) :
    b.reg r = if forwardsFromM t r then t.m.resultBuffer else a.reg r := by
  cases hv : s.e.valid with
  | false =>
    cases (stageStep_idle .execute s (.inl hv)).symm.trans h
    rw [completeE, hv] at hb
    cases hb
    simp [forwardsFromM, hm]
  | true =>
    rw [completeE, hv, if_pos rfl] at hb
    obtain ⟨hvalid, hop, hrd, hresult⟩ := executeStep_result hv hs h
    split
    case isTrue hf =>
      obtain ⟨_, hw, hnl, rfl⟩ := forwardsFromM_iff.1 hf
      rw [hop] at hw hnl
      have hdest := Latch.instr_rd hw
      rw [hresult, hrd, ← hdest]
      exact effect_reg_rd (s := atStage .execute s) hb (by rwa [Latch.instr_op]) (by rwa [Latch.instr_op])
        (by rw [hdest, hlen]; exact hl.rd_lt hv hw)
    case isFalse hf =>
      refine effect_reg_other hb fun hw hr => ?_
      rw [Latch.instr_op] at hw
      rw [Latch.instr_rd hw] at hr
      have hnl : s.e.op ≠ .load := fun ho => hload ⟨hv, ho, hr⟩
      exact hf (forwardsFromM_iff.2 ⟨hvalid, hop ▸ hw, hop ▸ hnl, hrd.trans hr⟩)

/-- In a block that does not stall, D reads the destination of a LOAD in E only where that is R0, the case of R286. -/
theorem State.Inv.no_load_use {s : State} (h : s.Inv) (hs : s.f.stall = false) (hz : loadUseR0 s = false)
    (hd : s.d.valid = true) {r : Reg} (hr : readsReg s.d r = true) :
    ¬(s.e.valid = true ∧ s.e.op = .load ∧ s.e.rd = r) := by
  rintro ⟨he, ho, rfl⟩
  by_cases h0 : s.e.rd = 0
  · rw [h0] at hr
    simp [loadUseR0, he, ho, h0, hd] at hz
    cases hz.symm.trans hr
  · have hazard : hazardCondition s = true := hazardCondition_iff.2 ⟨he, hd, by rw [ho]; rfl, h0, hr⟩
    cases (h.stallIsHazard.symm.trans hs).symm.trans hazard

/-- What the decode sub-step of a cycle sees through the forwarding mux, for a register of the file that is not the
destination of a LOAD in E: its value with the instructions in WB, M and E completed (R118, R152). -/
theorem fwd_eq_completed {s a b c : State} {x y : Arch} (hinv : s.Inv) (hw : writebackStep s = .next a)
    (hm : memoryStep a = .next b) (he : executeStep b = .next c) (hx : Claims.afterM s = some x)
    (hy : completeE s.cfg s.e x = some y) {r : Reg} (hr : r.toNat < s.cfg.numRegs)
    (hload : ¬(s.e.valid = true ∧ s.e.op = .load ∧ s.e.rd = r)) : fwd c r = some (y.reg r) := by
  have hregs := writebackStep_completes hinv.noStallWb hw
  have hlen := (writebackStep_regs_length hw).trans hinv.regCount
  have emptyWb := congrArg Latch.valid (writebackStep_empties hinv.noStallWb hw)
  obtain ⟨_, emptyM, _⟩ := memoryStep_after_writeback_moves hinv.flow hw hm
  have hlenW : (completeWb s.wb (visible s)).regs.length = s.cfg.numRegs := hregs ▸ hlen
  have hlenX := (completeM_regs_length hx).trans hlenW
  obtain ⟨_, _, _, _, rfl⟩ := writebackStep_frame hw
  have valueM := memoryStep_completes (by exact hinv.noStallM) emptyWb (by exact hinv.legalM) hlenW
    (completeWb_dm _ _) hm hx r
  obtain ⟨_, _, _, _, rfl⟩ := memoryStep_frame hm
  have valueE := executeStep_completes (by exact hinv.noStallE) emptyM (by exact hinv.legalE) hlenX he hy hload
  obtain ⟨_, _, _, _, _, _, _, _, _, _, rfl⟩ := executeStep_frame he
  have file := readReg_of_regs (r := r) hregs (by rwa [hlen])
  rw [valueE, valueM, fwd]
  split
  · rfl
  · split
    case isTrue hf => rw [if_pos (by exact hf)]
    case isFalse hf => rw [if_neg (by exact hf)]; exact file

/-! ### The statements -/

/-- Settles O11: a running block takes a cycle, which keeps the invariant, and an ended one keeps its state. -/
theorem everyStepKeepsInvariant : Obligations.EveryStepKeepsInvariant := by
  intro s t hinv h
  rcases step_next h with ⟨hr, _, _⟩ | ⟨_, rfl⟩
  · exact step_inv hinv hr h
  · exact hinv

/-- Settles O43: the stalled cycle empties E into M, so that its hazard checks find no hazard; the fetch does nothing
else. -/
theorem stallLastsOneCycle : Obligations.StallLastsOneCycle := by
  intro s t hinv hclean hstall
  obtain ⟨liveE, liveD⟩ := hinv.live_of_stalled hstall
  obtain ⟨d, u, older, hf, rfl⟩ := cleanCycle_older hinv hclean
  obtain ⟨emptyE, hd⟩ := older.stalled (hinv.stallPair.trans hstall)
  cases (fetchStep_stalled (by rw [older.f]; exact hstall)).symm.trans hf
  have noHazard : hazardCondition (hazardCheck d) = false := hazardCondition_of_no_e emptyE
  refine ⟨noHazard, noHazard, emptyE, older.m.valid.trans liveE, fun ht => ?_, fun ht => ?_⟩
  · have keepD : d.d = s.d := by rw [hd, flushedD_of_stay ht]
    have keepF : d.f = s.f := by rw [older.f, ht, Bool.or_false]
    have keepPc : d.pc = s.pc := by rw [older.pc, ht]; rfl
    refine ⟨?_, ?_, keepPc⟩
    · simp [noHazard, keepD]
    · simp [noHazard, keepF]
  · simp [hd, flushedD, ht]

/-- Settles O44: the transfer's cycle and, after a stalled one, the delay are cycles with a redirect; without a stall the
next cycle is a free fetch. -/
theorem takenTransferFlushesAndRefetches : Obligations.TakenTransferFlushesAndRefetches := by
  intro s t hinv hclean ht
  obtain ⟨hpc, enabled, emptyD, emptyE, hpending⟩ := cleanCycle_redirecting hinv hclean (by rw [ht, Bool.or_true])
  rw [ht, if_pos rfl] at hpc
  obtain ⟨_, toM⟩ := cleanCycle_advances hinv hclean
  obtain ⟨liveE, _⟩ := eTransfers_live ht
  have pcM : t.m.pc = s.e.pc := by rw [toM.pc, liveE, if_pos rfl]
  have hinv' := cleanCycle_inv hinv hclean
  have stay := eTransfers_of_no_e emptyE
  have unstalled := hinv'.unstalled_of_no_e emptyE
  refine ⟨hpc, enabled, emptyD, emptyE, toM.valid.trans liveE, toM.op liveE, pcM, hpending, fun hs u hu => ?_,
    fun hs u hu => ?_⟩
  · exact cleanCycle_reads hinv' hu stay enabled unstalled (hpending.trans hs)
  · obtain ⟨hpc', enabled', emptyD', _, hpending'⟩ :=
      cleanCycle_redirecting hinv' hu (by rw [hpending, hs, Bool.true_or])
    rw [stay] at hpc'
    exact ⟨hpc', hpending'.trans unstalled, emptyD', enabled'⟩

/-- Settles O57: M moves on in every cycle, and behind the delay of O44 stands a free fetch. -/
theorem transferSparesOlderAndStalledOneRefetchesLater :
    Obligations.TransferSparesOlderAndStalledOneRefetchesLater := by
  intro s t hinv hclean ht
  obtain ⟨toWb, _⟩ := cleanCycle_advances hinv hclean
  refine ⟨toWb.valid, fun hm => ⟨toWb.op hm, by rw [toWb.pc, hm, if_pos rfl]⟩, fun hs u v hu hv => ?_⟩
  obtain ⟨_, _, _, emptyE, hpending⟩ := cleanCycle_redirecting hinv hclean (by rw [ht, Bool.or_true])
  have hinvT := cleanCycle_inv hinv hclean
  obtain ⟨hpc, enabled, _, emptyE', hpending'⟩ :=
    cleanCycle_redirecting hinvT hu (by rw [hpending, hs, Bool.true_or])
  rw [eTransfers_of_no_e emptyE] at hpc
  have hpc : u.pc = t.pc := hpc
  have hinvU := cleanCycle_inv hinvT hu
  obtain ⟨_, hstep, _⟩ := hu
  obtain ⟨_, _, hcfg⟩ := codeAndBtbNeverChange t u hstep
  have reads := cleanCycle_reads hinvU hv (eTransfers_of_no_e emptyE') enabled (hinvU.unstalled_of_no_e emptyE')
    (hpending'.trans (hinvT.unstalled_of_no_e emptyE))
  rwa [hpc, hcfg] at reads

/-- Settles O45: behind a HALT in WB nothing younger is and fetch is disabled, so only the writeback sub-step acts. -/
theorem retiringHaltEndsTheRun : Obligations.RetiringHaltEndsTheRun := by
  intro s hinv hr hcode hv ho
  obtain ⟨disabled, emptyD, emptyE, emptyM⟩ := hinv.haltWb ⟨hv, ho⟩
  have stallF := hinv.unstalled_of_no_e emptyE
  have hw := writebackStep_halt hv hinv.noStallWb ho
  have noHazard := hazardCheck_of_no_hazard (s := signalHalt (retire (atStage .writeback s)))
    (hazardCondition_of_no_e emptyE) stallF (hinv.stallPair.trans stallF)
  rw [step_of_subSteps hr hcode hw (stageStep_idle .memory _ (.inl emptyM)) (stageStep_idle .execute _ (.inl emptyE))
    (stageStep_idle .decode _ (.inl emptyD)) (fetchStep_disabled stallF disabled), noHazard]
  simp [endCycle, signalHalt, retire, atStage, hinv.seqRests]

/-- Settles O47: the sub-steps before the fetch do not fault and leave pc, so the fetch is the fault. -/
theorem fetchOutOfRangeFaults : Obligations.FetchOutOfRangeFaults := by
  intro s hinv hr hcode hdata ht hv hs hp hread
  obtain ⟨t, hstep⟩ := everyBlockSteps.1 s hinv hcode
  refine ⟨t, hstep, ?_⟩
  have faults {a b c d : State} (hw : writebackStep s = .next a) (hm : memoryStep a = .next b)
      (he : executeStep b = .next c) (hd : decodeStep c = .next d) :
      OlderStages s d ∧ d.f = s.f ∧ d.pc = s.pc ∧ fetchStep d = .fault (.fetchOutOfRange s.pc) := by
    have older := olderStages hinv.flow hw hm he hd
    have hf : d.f = s.f := by rw [older.f, ht, Bool.or_false]
    have hpc : d.pc = s.pc := by rw [older.pc, ht]; rfl
    have hpending : d.redirectPending = false := by rw [older.pending, ht, hp]; rfl
    have hnone : codeRead d d.pc = none := by rw [codeRead, older.cfg, older.code, hpc]; exact hread
    refine ⟨older, hf, hpc, ?_⟩
    rw [fetchStep_reads (hf ▸ hv) (hf ▸ hs) hpending (older.btb ▸ hinv.no_tag), fetchRead_undefined hnone, hpc]
  cases step_cycleRun hr hstep with
  | dataFault hw hm ht =>
    obtain ⟨_, _, _, _, rfl⟩ := writebackStep_frame hw
    obtain ⟨⟨liveM, _⟩, hop, hout, _⟩ := memoryStep_fault hm
    exact absurd ⟨liveM, hop, fun hin => by cases (dataInRange_iff.2 hin).symm.trans hout⟩ hdata
  | completes hw hm he hd hf _ =>
    obtain ⟨_, _, _, hfault⟩ := faults hw hm he hd
    cases hfault.symm.trans hf
  | fetchFault hw hm he hd hf htx =>
    obtain ⟨older, sameF, samePc, hfault⟩ := faults hw hm he hd
    cases hfault.symm.trans hf
    subst htx
    obtain ⟨toE, emptyD, _⟩ := older.free (hinv.stallPair.trans hs)
    rw [flushedD_of_stay ht] at toE
    exact ⟨by rw [stopFaulted_status, older.clock]; rfl, samePc, sameF, older.clock, emptyD, toE.valid, older.m.valid,
      older.wb.valid, toE.pc, older.m.pc, older.wb.pc⟩

/-- Settles O48: what the decode sub-step puts into E is what the forwarding mux answers, and no hazard stands between D
and E, so the mux answers the value in program order. -/
theorem decodedOperandsAreProgramOrderValues : Obligations.DecodedOperandsAreProgramOrderValues := by
  intro s t x y hinv hclean hv hs ht hz hx hy
  obtain ⟨a, b, c, d, u, hw, hm, he, hd, hf, rfl⟩ := cleanCycle_subSteps hclean
  have value {r : Reg} (hread : readsReg s.d r = true) (hr : r.toNat < s.cfg.numRegs) : fwd c r = some (y.reg r) :=
    fwd_eq_completed hinv hw hm he hx hy hr (hinv.no_load_use hs hz hv hread)
  have sameD : c.d = s.d := (executeStep_leaves_flushedD hinv.flow hw hm he).trans (flushedD_of_stay ht)
  have live : c.d.valid = true := sameD ▸ hv
  have op : c.d.op = s.d.op := congrArg Latch.op sameD
  have pc : c.d.pc = s.d.pc := congrArg Latch.pc sameD
  obtain ⟨x1, x2, rfl, h1, h2⟩ := decodeStep_live live (sameD ▸ hinv.stallPair.trans hs) hd
  obtain ⟨_, _, _, _, _, rfl⟩ := fetchStep_frame hf
  rw [sameD] at h1 h2
  refine ⟨live, op, pc, fun hr1 => ?_, fun hr2 => ?_⟩
  · exact Option.some.inj ((h1 hr1).symm.trans (value (readsReg_rs1 hr1) (hinv.legalD.rs1_lt hv hr1)))
  · exact Option.some.inj ((h2 hr2).symm.trans (value (readsReg_rs2 hr2) (hinv.legalD.rs2_lt hv hr2)))

/-- Settles O13: with the older latches empty, the step is the fetch of the record at pc, which fills D, so that E is
still empty at the hazard check. -/
theorem stepRunsTheFetchedInstruction : Obligations.StepRunsTheFetchedInstruction := by
  intro s r hr hread hv hs hp hbtb hd he hm hwb
  refine ⟨_, exec_fetch r.instr rfl, ?_⟩
  have hcode : s.code ≠ [] := List.ne_nil_of_mem (codeAt_mem hread)
  rw [step_of_bubbles hr hcode hd he hm hwb ((fetchStep_reads hv hs hp hbtb).trans (fetchRead_defined hread))]
  obtain ⟨f, d, hpart⟩ := fetchPart_frame r.instr (atStage .fetch (latchFetched r s))
  have noHazard := hazardCondition_of_no_e (s := fetchPart r.instr (atStage .fetch (latchFetched r s)))
    (by rw [hpart]; exact he)
  rw [hazardCheck, noHazard, hpart]
  simp [endCycle, atStage, hr]

/-- Settles O15: a live latch's stage runs its instruction, and an idle one's does nothing. -/
theorem stageRunsItsLatchsInstruction : Obligations.StageRunsItsLatchsInstruction :=
  fun s => ⟨stageStep_live .writeback s, stageStep_live .memory s, stageStep_live .execute s, stageStep_live .decode s,
    stageStep_idle .writeback s, stageStep_idle .memory s, stageStep_idle .execute s, stageStep_idle .decode s⟩

/-- Settles O16: the sub-steps put together, with the end of the cycle written out. -/
theorem cycleRunsTheSubStepsInOrder : Obligations.CycleRunsTheSubStepsInOrder :=
  fun _ _ _ _ _ _ hr hcode hw hm he hd hf => step_of_subSteps hr hcode hw hm he hd hf

/-- Settles O34, one clause per way in which the fetch sub-step waits. -/
theorem fetchWaitsWhenStalledDisabledOrDelayed : Obligations.FetchWaitsWhenStalledDisabledOrDelayed :=
  fun _ => ⟨fetchStep_stalled, fetchStep_disabled, fetchStep_delayed⟩

/-- Settles O32, by the two sources of the mux, M first. -/
theorem forwardingMuxRule : Obligations.ForwardingMuxRule := by
  intro s r writers fromM fromWb
  have hM : forwardsFromM s r = true ↔ fromM := by rw [forwardsFromM_iff, isWriter_iff]
  have hWb : forwardsFromWb s r = true ↔ fromWb := by rw [forwardsFromWb_iff, isWriter_iff]
  rw [← hM, ← hWb, fwd]
  refine ⟨fun h => if_pos h, fun h h' => ?_, fun h h' => ?_⟩
  · rw [if_neg h, if_pos h']
  · rw [if_neg h, if_neg h', readReg]

/-- Settles O33: the stall bits are the hazard condition, spelled out by the opcode lists. -/
theorem hazardCheckRule : Obligations.HazardCheckRule := by
  intro s writers both first hazard
  have hz : hazardCondition s = true ↔ hazard := by rw [hazardCondition_iff, isWriter_iff, readsReg_iff]
  rw [← hz, hazardCheck]
  exact ⟨fun h => by rw [h], fun h => by rw [Bool.eq_false_iff.2 h]⟩

/-- Settles O35: the lookup by the list of entries, the table by its four histories. -/
theorem btbLookupAndPredictionTable : Obligations.BtbLookupAndPredictionTable :=
  ⟨fun _ _ => btbLookup_eq_none, fun _ _ _ _ => btbLookup_first, by decide⟩

/-- Settles O36, by what lies at pc and what the lookup answers. -/
theorem btbPredictionStepRule : Obligations.BtbPredictionStepRule := by
  intro s
  refine ⟨btbPredictStep_of_no_record, fun r hr => ⟨?_, fun i x hb hl hx => ?_⟩⟩
  · rintro (hb | hl)
    · exact btbPredictStep_of_no_branch hr (Bool.eq_false_iff.2 (mt isBranch_iff.1 hb))
    · exact btbPredictStep_of_miss hr hl
  · exact btbPredictStep_of_hit hr (isBranch_iff.2 hb) hl hx

end Sys2Proof.Machine

/-!
PROOF. The ALU family of 41_alu.md. Each part of an instruction outside the execute sub-step follows from its mnemonic
alone, by the opcode sets of 40_pipeline_engine.md R104 and R105; the execute part is one of three shapes: a result with
Z from it, a result alone, or the three flags.
-/

namespace Sys2Proof.Machine

open Sys2Proof.Claims

/-! ### The parts of an instruction that its mnemonic fixes -/

/-- Only HALT and NOP do more in the fetch sub-step than the hand-off (R111 to R114). -/
theorem passesFetch_of_op {i : Instr} (hhalt : i.op ≠ .halt) (hnop : i.op ≠ .nop) : passesFetch i := by
  intro s hs
  rw [exec_fetch i hs]
  unfold fetchPart
  split
  · exact absurd ‹_› hhalt
  · exact absurd ‹_› hnop
  · rfl

/-- An instruction with empty SRCS reads no operand (R116). -/
theorem readsNone_of_op {i : Instr} (h : readsRs1 i.op = false) : readsNone i := by
  intro s hs
  have h2 : ¬readsRs2 i.op = true := fun h2 => Bool.eq_false_iff.1 h (readsRs1_of_readsRs2 h2)
  rw [exec_decode i hs, if_neg h2, if_neg (Bool.eq_false_iff.1 h)]
  rfl

/-- An instruction whose SRCS hold rs1 alone reads that register through the forwarding mux (R116 to R118). -/
theorem readsFirst_of_op {i : Instr} (h1 : readsRs1 i.op = true) (h2 : readsRs2 i.op = false) :
    readsFirst i i.record.rs1 := by
  intro s x hs hx
  rw [exec_decode i hs, if_neg (Bool.eq_false_iff.1 h2), if_pos h1, decodeFirst, hx]
  rfl

/-- An instruction whose SRCS hold rs2 reads both registers through the forwarding mux (R116 to R118). -/
theorem readsBoth_of_op {i : Instr} (h : readsRs2 i.op = true) : readsBoth i i.record.rs1 i.record.rs2 := by
  intro s x y hs hx hy
  rw [exec_decode i hs, if_pos h, decodeBoth, hx, hy]
  rfl

/-- Only LOAD and STORE do more in the memory sub-step than the hand-off (R127 to R130). -/
theorem passesMemory_of_op {i : Instr} (hload : i.op ≠ .load) (hstore : i.op ≠ .store) : passesMemory i := by
  intro s hs
  rw [exec_memory i hs, if_neg hload, if_neg hstore]
  rfl

/-- A register writer writes its destination back (R132 to R134). -/
theorem writesBack_of_op {i : Instr} (h : isWriter i.op = true) : writesBack i i.record.rd := by
  intro s hs hrd
  rw [exec_writeback i hs, if_pos h, writebackReg_of_inFile hrd]
  rfl

/-- An instruction that is neither a register writer nor HALT is only counted in the writeback sub-step (R133, R134). -/
theorem writesNothingBack_of_op {i : Instr} (hw : isWriter i.op = false) (hhalt : i.op ≠ .halt) :
    writesNothingBack i := by
  intro s hs
  rw [exec_writeback i hs, if_neg (Bool.eq_false_iff.1 hw), if_neg hhalt]
  rfl

/-! ### The shapes of the execute part -/

/-- An execute arm that sets the result and Z from it (R161, R162, R166, R167). -/
theorem executesTo_of_setResultZ {i : Instr} {v : State → Word} (h : ∀ s, executeArm i s = setResultZ (v s) s) :
    executesTo i v (fun s => decide (v s = 0)) := by
  intro s hs
  rw [exec_execute i hs, h]
  rfl

/-- An execute arm that sets the result alone: Z stays (R163 to R165, R168). -/
theorem executesTo_of_setResult {i : Instr} {v : State → Word} (h : ∀ s, executeArm i s = setResult (v s) s) :
    executesTo i v (fun s => s.z) := by
  intro s hs
  rw [exec_execute i hs, h]
  rfl

/-- The three flags of CMP are the three cases of the signed comparison, so exactly one of them is 1 (R169). -/
theorem cmpFlags_oneHot (a b : Word) :
    (cmpZ a b, cmpN a b, cmpP a b) ∈ [(true, false, false), (false, true, false), (false, false, true)] := by
  unfold cmpZ cmpN cmpP
  rcases lt_trichotomy (s32 a) (s32 b) with hlt | heq | hgt
  · simp [hlt, hlt.ne, hlt.not_gt]
  · simp [heq]
  · simp [hgt, hgt.ne', hgt.not_gt]

/-! ### The ALU instructions that write a register -/

/-- The five parts of a register writer other than LOAD, from how it reads its operands and what it executes. -/
theorem resultWriter_parts {i : Instr} {reads : Prop} {v : State → Word} {z : State → Bool}
    (hw : isWriter i.op = true) (hload : i.op ≠ .load) (hreads : reads) (hexec : executesTo i v z) :
    passesFetch i ∧ reads ∧ executesTo i v z ∧ passesMemory i ∧ writesBack i i.record.rd := by
  have other : ∀ op, isWriter op = false → i.op ≠ op := by
    rintro op hop rfl
    exact Bool.eq_false_iff.1 hop hw
  exact ⟨passesFetch_of_op (other _ rfl) (other _ rfl), hreads, hexec, passesMemory_of_op hload (other _ rfl),
    writesBack_of_op hw⟩

/-- Settles O19: the operands of RRR, and a result with Z from it. -/
theorem addAndSubFollowTheirRules : Obligations.AddAndSubFollowTheirRules :=
  fun _ _ _ =>
    ⟨resultWriter_parts rfl nofun (readsBoth_of_op rfl) (executesTo_of_setResultZ fun _ => rfl),
      resultWriter_parts rfl nofun (readsBoth_of_op rfl) (executesTo_of_setResultZ fun _ => rfl)⟩

/-- Settles O20: the operands of RRR, and a result alone. -/
theorem logicalInstructionsFollowTheirRules : Obligations.LogicalInstructionsFollowTheirRules :=
  fun _ _ _ =>
    ⟨resultWriter_parts rfl nofun (readsBoth_of_op rfl) (executesTo_of_setResult fun _ => rfl),
      resultWriter_parts rfl nofun (readsBoth_of_op rfl) (executesTo_of_setResult fun _ => rfl),
      resultWriter_parts rfl nofun (readsBoth_of_op rfl) (executesTo_of_setResult fun _ => rfl)⟩

/-- Settles O21: the one operand of RRI, and a result with Z from it. -/
theorem immediateArithmeticFollowsItsRules : Obligations.ImmediateArithmeticFollowsItsRules :=
  fun _ _ _ =>
    ⟨resultWriter_parts rfl nofun (readsFirst_of_op rfl rfl) (executesTo_of_setResultZ fun _ => rfl),
      resultWriter_parts rfl nofun (readsFirst_of_op rfl rfl) (executesTo_of_setResultZ fun _ => rfl)⟩

/-- Settles O22: no operand, and the immediate as the result. -/
theorem movcFollowsItsRule : Obligations.MovcFollowsItsRule :=
  fun _ _ => resultWriter_parts rfl nofun (readsNone_of_op rfl) (executesTo_of_setResult fun _ => rfl)

/-! ### CMP -/

/-- Settles O23: the flags are CMP's comparisons, one of them 1, and no register is written. -/
theorem cmpFollowsItsRule : Obligations.CmpFollowsItsRule := by
  intro rs1 rs2
  refine ⟨passesFetch_of_op nofun nofun, readsBoth_of_op rfl, fun s hs => ?_, passesMemory_of_op nofun nofun,
    writesNothingBack_of_op rfl nofun⟩
  exact ⟨cmpZ s.e.rs1Value s.e.rs2Value, cmpN s.e.rs1Value s.e.rs2Value, cmpP s.e.rs1Value s.e.rs2Value,
    cmpFlags_oneHot _ _, decide_eq_true_iff, decide_eq_true_iff, decide_eq_true_iff, exec_execute _ hs⟩

end Sys2Proof.Machine

/-!
PROOF. The load/store family of 42_load_store.md. Outside the memory sub-step the parts follow from the mnemonic and the
execute arm; the memory part answers by the range condition of R64 and R65, the hand-off of the access in range and the
fault of M's instruction out of range.
-/

namespace Sys2Proof.Machine

/-! ### The memory part of LOAD and STORE, by the range condition -/

/-- The two ways an address leaves data memory (R64, R65). -/
theorem not_dataInRange_iff {c : Config} {a : Word} :
    ¬dataInRange c a = true ↔ s32 a < 0 ∨ c.dataWords ≤ s32 a := by
  rw [dataInRange_iff]
  omega

/-- LOAD in range hands on the addressed word as its result (R127, R130). -/
theorem memoryLoad_of_inRange {s : State} (h : dataInRange s.cfg s.m.memoryAddress = true) :
    memoryLoad s =
      .next (memoryHandOff { s with m := { s.m with resultBuffer := s.dm.read (s32 s.m.memoryAddress).toNat } }) := by
  rw [memoryLoad, memRead_of_inRange h]

/-- LOAD out of range is the fault of the instruction in M (R64, R250). -/
theorem memoryLoad_of_outOfRange {s : State} (h : ¬dataInRange s.cfg s.m.memoryAddress = true) :
    memoryLoad s = .fault (.dataOutOfRange s.m.pc s.m.op s.m.memoryAddress) := by
  rw [memoryLoad, memRead_of_outOfRange h]

/-- STORE in range writes its result to the addressed word and is handed on (R128, R130). -/
theorem memoryStore_of_inRange {s : State} (h : dataInRange s.cfg s.m.memoryAddress = true) :
    memoryStore s =
      .next (memoryHandOff { s with dm := s.dm.write (s32 s.m.memoryAddress).toNat s.m.resultBuffer }) := by
  rw [memoryStore, memWrite_of_inRange _ h]

/-- STORE out of range is the fault of the instruction in M (R65, R250). -/
theorem memoryStore_of_outOfRange {s : State} (h : ¬dataInRange s.cfg s.m.memoryAddress = true) :
    memoryStore s = .fault (.dataOutOfRange s.m.pc s.m.op s.m.memoryAddress) := by
  rw [memoryStore, memWrite_of_outOfRange _ h]

/-- In the memory sub-step a LOAD is `memoryLoad` (R127). -/
theorem exec_memory_of_load {i : Instr} {s : State} (ho : i.op = .load) (hs : s.seq.stage = .memory) :
    exec i s = memoryLoad s := by
  rw [exec_memory i hs, if_pos ho]

/-- In the memory sub-step a STORE is `memoryStore` (R128). -/
theorem exec_memory_of_store {i : Instr} {s : State} (ho : i.op = .store) (hs : s.seq.stage = .memory) :
    exec i s = memoryStore s := by
  rw [exec_memory i hs, if_neg (by simp [ho]), if_pos ho]

/-! ### The statements -/

/-- Settles O24: one operand, the address from the execute arm, and the memory part of LOAD on both sides of the range. -/
theorem loadFollowsItsRule : Obligations.LoadFollowsItsRule := by
  intro rd rs1 imm
  refine ⟨passesFetch_of_op nofun nofun, readsFirst_of_op rfl rfl, fun s hs => exec_execute _ hs, fun s hs => ?_,
    writesBack_of_op rfl⟩
  rw [exec_memory_of_load rfl hs]
  constructor
  · intro hlo hhi
    exact memoryLoad_of_inRange (dataInRange_iff.2 ⟨hlo, hhi⟩)
  · intro hout
    exact memoryLoad_of_outOfRange (not_dataInRange_iff.2 hout)

/-- Settles O25: two operands, the address and the data from the execute arm, and the memory part of STORE on both sides
of the range; what the written memory reads is the law of a write to a canonical memory. -/
theorem storeFollowsItsRule : Obligations.StoreFollowsItsRule := by
  intro rs1 rs2 imm
  refine ⟨passesFetch_of_op nofun nofun, readsBoth_of_op rfl, fun s hs => exec_execute _ hs, fun s hs => ?_,
    writesNothingBack_of_op rfl nofun⟩
  rw [exec_memory_of_store rfl hs]
  constructor
  · intro hlo hhi hwf
    have hread := read_write hwf (s32 s.m.memoryAddress).toNat s.m.resultBuffer
    exact ⟨_, memoryStore_of_inRange (dataInRange_iff.2 ⟨hlo, hhi⟩), write_wf _ _ hwf,
      (hread _).trans (if_pos rfl), fun a ha => (hread a).trans (if_neg ha)⟩
  · intro hout
    exact memoryStore_of_outOfRange (not_dataInRange_iff.2 hout)

end Sys2Proof.Machine

/-!
PROOF. The control transfers of 43_control.md: the rules of the branches and jumps, stage by stage, and the headline
of R222, that the pipeline, with its transfers, flushes and stalls, is one-instruction-at-a-time execution.
-/

namespace Sys2Proof.Machine

open Sys2Proof.Claims

/-! ### The execute part of a transfer, taken and not taken -/

/-- A transfer that is taken leaves its result, redirects to its target and moves to M (R124, R125). -/
theorem exec_redirects {i : Instr} {s : State} {v : Word} (hs : s.seq.stage = .execute)
    (taken : transfers i s.z s.n s.p = true) (result : executeResult i s = setResult v s) :
    exec i s = .next (redirected s (transferTarget i s.e.pc s.e.rs1Value) v) := by
  rw [exec_execute i hs, executeArm, if_pos taken, result]
  rfl

/-- A transfer that is not taken, and has no result, only moves to M (R125). -/
theorem exec_stays {i : Instr} {s : State} (hs : s.seq.stage = .execute) (stays : transfers i s.z s.n s.p = false)
    (result : executeResult i s = s) : exec i s = .next { s with m := s.e, e := { s.e with valid := false } } := by
  rw [exec_execute i hs, executeArm, if_neg (Bool.eq_false_iff.1 stays), result]
  rfl

/-! ### The conditional branches -/

/-- A conditional branch has no source and no destination (R104, R105). -/
theorem operands_of_isBranch {op : Op} (h : isBranch op = true) : readsRs1 op = false ∧ isWriter op = false := by
  cases op with
  | bz | bnz | bp | bnp | bn | bnn => exact ⟨rfl, rfl⟩
  | _ => cases h

/-- The result of a conditional branch is empty, and its target is its own pc plus its immediate (R210). -/
theorem execute_of_isBranch {i : Instr} (h : isBranch i.op = true) :
    (∀ s, executeResult i s = s) ∧ ∀ at0 x, transferTarget i at0 x = addWrap at0 i.record.imm := by
  cases i with
  | bz | bnz | bp | bnp | bn | bnn => exact ⟨fun _ => rfl, fun _ _ => rfl⟩
  | _ => cases h

/-- Outside the execute sub-step a conditional branch is only handed on and counted. -/
theorem branchPasses_of_op {i : Instr} (h : isBranch i.op = true) : branchPasses i := by
  have other : ∀ op, isBranch op = false → i.op ≠ op := by
    rintro op hop rfl
    exact Bool.eq_false_iff.1 hop h
  obtain ⟨noSource, noDest⟩ := operands_of_isBranch h
  exact ⟨passesFetch_of_op (other _ rfl) (other _ rfl), readsNone_of_op noSource,
    passesMemory_of_op (other _ rfl) (other _ rfl), writesNothingBack_of_op noDest (other _ rfl)⟩

/-- The parts of a conditional branch, from its test (R210). -/
theorem branch_parts {i : Instr} {taken : State → Bool} (h : isBranch i.op = true)
    (test : ∀ s : State, transfers i s.z s.n s.p = taken s) : branchPasses i ∧ branches i i.record.imm taken := by
  obtain ⟨result, target⟩ := execute_of_isBranch h
  refine ⟨branchPasses_of_op h, fun s hs => ⟨fun ht => ?_, fun ht => ?_⟩⟩
  · rw [exec_redirects (v := s.e.resultBuffer) hs ((test s).trans ht) (result s), target]
    rfl
  · exact exec_stays hs ((test s).trans ht) (result s)

/-- Settles O26: the six branches differ in their tests alone. -/
theorem conditionalBranchesFollowTheirRules : Obligations.ConditionalBranchesFollowTheirRules :=
  fun _ =>
    ⟨branch_parts rfl fun _ => rfl, branch_parts rfl fun _ => rfl, branch_parts rfl fun _ => rfl,
      branch_parts rfl fun _ => rfl, branch_parts rfl fun _ => rfl, branch_parts rfl fun _ => rfl⟩

/-! ### JUMP and JAL -/

/-- Settles O27: both are always taken; JUMP leaves the result as it was, JAL leaves the link, which it writes back. -/
theorem jumpAndJalFollowTheirRules : Obligations.JumpAndJalFollowTheirRules := by
  intro rd rs1 imm
  constructor
  · exact ⟨passesFetch_of_op nofun nofun, readsFirst_of_op rfl rfl,
      fun s hs => exec_redirects (v := s.e.resultBuffer) hs rfl rfl, passesMemory_of_op nofun nofun,
      writesNothingBack_of_op rfl nofun⟩
  · exact ⟨passesFetch_of_op nofun nofun, readsFirst_of_op rfl rfl,
      fun s hs => exec_redirects (v := nextPc s.cfg s.e.pc) hs rfl rfl, passesMemory_of_op nofun nofun,
      writesBack_of_op rfl⟩

/-! ### Completing the instructions in flight (R222) -/

/-- The registers once the instruction in latch `l`, if it is a register writer, has written its result back. -/
def Latch.writtenBack (l : Latch) (regs : List Word) : List Word :=
  if l.valid && isWriter l.op then regs.set l.rd.toNat l.resultBuffer else regs

/-- Completing the instruction in WB changes only the registers. -/
theorem completeWb_visible (l : Latch) (s : State) :
    completeWb l (visible s) = { visible s with regs := l.writtenBack s.regs } := by
  unfold completeWb Latch.writtenBack
  split <;> rfl

/-- The pc and the flags of a software-visible state are those of the block. -/
structure Arch.SteersAs (a : Arch) (s : State) : Prop where
  pc : a.pc = s.pc
  z : a.z = s.z
  n : a.n = s.n
  p : a.p = s.p

/-- Completing the instruction in M changes neither pc nor a flag. -/
theorem completeM_steersAs {c : Config} {l : Latch} {s : State} {a b : Arch} (ha : a.SteersAs s)
    (h : completeM c l a = some b) : b.SteersAs s := by
  obtain ⟨pc, z, n, p⟩ := ha
  unfold completeM at h
  repeat' split at h
  all_goals cases h
  all_goals exact ⟨pc, z, n, p⟩

/-- With WB and M completed, the software-visible state has the pc and the flags of the block. -/
theorem afterM_steersAs {s : State} {a : Arch} (h : afterM s = some a) : a.SteersAs s := by
  refine completeM_steersAs ?_ h
  rw [completeWb_visible]
  exact ⟨rfl, rfl, rfl, rfl⟩

/-- The writeback sub-step completes the instruction in WB (R131 to R134). -/
theorem visible_writebackStep {s t : State} (hs : s.wb.stall = false) (h : writebackStep s = .next t) :
    visible t = completeWb s.wb (visible s) := by
  have hregs := writebackStep_completes hs h
  rw [completeWb_visible] at hregs ⊢
  obtain ⟨regs, _, _, _, rfl⟩ := writebackStep_frame h
  obtain rfl : regs = s.wb.writtenBack s.regs := hregs
  rfl

/-- The memory sub-step leaves in WB what completing the instruction in M is then left to do (R126 to R130). -/
theorem completeWb_memoryStep {s t : State} (hs : s.m.stall = false) (hwb : s.wb.valid = false)
    (h : memoryStep s = .next t) : completeM s.cfg s.m (visible s) = some (completeWb t.wb (visible t)) := by
  cases hv : s.m.valid with
  | false =>
    cases (stageStep_idle .memory s (.inl hv)).symm.trans h
    simp [completeM, completeWb, hv, hwb]
  | true =>
    obtain ⟨ho, hin, rfl⟩ | ⟨ho, hin, rfl⟩ | ⟨hload, hstore, rfl⟩ := memoryStep_live hv hs h
    · simp [completeM, completeWb, hv, ho, hin, isWriter, visible]
    · simp [completeM, completeWb, hv, ho, hin, isWriter, visible]
    · simp [completeM, completeWb, hv, hload, hstore, visible, atStage]

/-- Completing in M the instruction that the execute arm has run gives its effect on the state that it ran in, whatever
the registers (R123, R222). -/
theorem completeM_executeArm {s : State} (hv : s.e.valid = true) (regs : List Word) :
    completeM s.cfg (executeArm s.e.instr s).e { visible (executeArm s.e.instr s) with regs := regs } =
      effect s.cfg s.e.pc s.e.instr s.e.rs1Value s.e.rs2Value { visible s with regs := regs } := by
  obtain ⟨_, _, _, _, z, n, p, _, _, _, _, ⟨_, _, _, op, _, _, _, _, _, _, _, _⟩, _, _, _, _, _, _, _⟩ := s
  cases hv
  cases op with
  | bz | bnz => cases z <;> rfl
  | bp | bnp => cases p <;> rfl
  | bn | bnn => cases n <;> rfl
  | _ => rfl

/-- The execute sub-step leaves in M what completing the instruction in E is then left to do (R122 to R125). -/
theorem afterM_executeStep {s t : State} (hs : s.e.stall = false) (hm : s.m.valid = false)
    (h : executeStep s = .next t) : afterM t = completeE s.cfg s.e (completeWb s.wb (visible s)) := by
  cases hv : s.e.valid with
  | false =>
    cases (stageStep_idle .execute s (.inl hv)).symm.trans h
    simp [afterM, completeM, completeE, hv, hm]
  | true =>
    obtain ⟨hcfg, hwb, hregs⟩ : t.cfg = s.cfg ∧ t.wb = s.wb ∧ t.regs = s.regs := by
      obtain ⟨_, _, _, _, _, _, _, _, _, _, rfl⟩ := executeStep_frame h
      exact ⟨rfl, rfl, rfl⟩
    rw [afterM, completeWb_visible, completeWb_visible, hcfg, hwb, hregs, completeE, if_pos hv]
    rw [executeStep_live hv hs] at h
    cases h
    exact completeM_executeArm (s := atStage .execute s) hv _

/-- There is nothing to complete from an empty E. -/
theorem completeE_of_bubble {c : Config} {l : Latch} (h : l.valid = false) : completeE c l = some := by
  funext a
  simp [completeE, h]

/-- There is nothing to complete from an empty D. -/
theorem completeD_of_bubble {c : Config} {l : Latch} (h : l.valid = false) : completeD c l = some := by
  funext a
  simp [completeD, h]

/-- A transfer in E leaves no instruction in D (R124). -/
theorem flushedD_of_transfer {s : State} (h : eTransfers s = true) : (flushedD s).valid = false := by
  simp [flushedD, h]

/-- The software-visible state once WB, M and E have completed. -/
def afterE (s : State) : Option Arch := (afterM s).bind (completeE s.cfg s.e)

/-- The instructions in flight settle in program order: those in WB, M and E, then the one in D unless E flushes it. -/
theorem settled_eq (s : State) : settled s = (afterE s).bind (completeD s.cfg (flushedD s)) := by
  have young (b : Arch) :
      (if eTransfers s then some b else completeD s.cfg s.d b) = completeD s.cfg (flushedD s) b := by
    cases ht : eTransfers s with
    | true => rw [completeD_of_bubble (flushedD_of_transfer ht)]; rfl
    | false => rw [flushedD_of_stay ht]; rfl
  unfold settled afterE afterM
  split
  case h_1 hx => rw [hx]; rfl
  case h_2 a hx =>
    rw [hx, Option.bind_some]
    split
    case h_1 hy => rw [hy]; rfl
    case h_2 b hy => rw [hy, Option.bind_some, ← young b]

/-- The sub-steps before the fetch complete the instructions in WB, M and E as far as WB and M have not to. -/
theorem afterM_olderStages {s a b c d : State} (hinv : s.Inv) (hw : writebackStep s = .next a)
    (hm : memoryStep a = .next b) (he : executeStep b = .next c) (hd : decodeStep c = .next d) :
    afterM d = afterE s := by
  have doneWb := visible_writebackStep hinv.noStallWb hw
  have emptyWb := congrArg Latch.valid (writebackStep_empties hinv.noStallWb hw)
  obtain ⟨_, emptyM, _⟩ := memoryStep_after_writeback_moves hinv.flow hw hm
  obtain ⟨_, _, _, _, rfl⟩ := writebackStep_frame hw
  have doneM := completeWb_memoryStep (by exact hinv.noStallM) emptyWb hm
  rw [doneWb] at doneM
  have doneM : afterM s = some (completeWb b.wb (visible b)) := doneM
  obtain ⟨_, _, _, _, rfl⟩ := memoryStep_frame hm
  have doneE := afterM_executeStep (by exact hinv.noStallE) emptyM he
  obtain ⟨_, _, _, rfl⟩ := decodeStep_frame hd
  rw [afterE, doneM]
  exact doneE

/-! ### The pc of the software-visible state -/

/-- A software-visible state at another pc. -/
def Arch.setPc (a : Arch) (p : Word) : Arch := { a with pc := p }

/-- The pc that the block has is set already. -/
theorem Arch.SteersAs.setPc_self {a : Arch} {s : State} (h : a.SteersAs s) : a.setPc s.pc = a := by
  rw [Arch.setPc, ← h.pc]

/-- Completing the instruction in M does not depend on pc. -/
theorem completeM_setPc (c : Config) (l : Latch) (a : Arch) (p : Word) :
    completeM c l (a.setPc p) = (completeM c l a).map (·.setPc p) := by
  unfold completeM
  repeat' split
  all_goals rfl

/-- Completing the instructions in WB and M does not depend on pc. -/
theorem afterM_of_pc (s : State) (p : Word) : afterM { s with pc := p } = (afterM s).map (·.setPc p) := by
  rw [afterM, afterM, ← completeM_setPc, completeWb_visible, completeWb_visible]
  rfl

/-- The fetch sub-step and the end of the cycle move at most the pc of what WB and M leave. -/
theorem afterM_fetchStep {s t : State} (h : fetchStep s = .next t) :
    afterM (endCycle (hazardCheck t)) = (afterM s).map (·.setPc t.pc) := by
  obtain ⟨pc, _, _, _, _, rfl⟩ := fetchStep_frame h
  exact afterM_of_pc s pc

/-- A fetch that leaves pc leaves what WB and M leave. -/
theorem afterM_fetchStep_of_pc {s t : State} (h : fetchStep s = .next t) (hpc : t.pc = s.pc) :
    afterM (endCycle (hazardCheck t)) = afterM s := by
  rw [afterM_fetchStep h, hpc]
  cases ha : afterM s with
  | none => rfl
  | some a => rw [Option.map_some, (afterM_steersAs ha).setPc_self]

/-- The effect of an instruction that leaves the sequential path does not depend on pc (R210, R217, R218). -/
theorem effect_setPc_of_transfers {c : Config} {at0 x y : Word} {i : Instr} {a : Arch}
    (h : transfers i a.z a.n a.p = true) (p : Word) : effect c at0 i x y (a.setPc p) = effect c at0 i x y a := by
  cases i with
  | jump | jal => rfl
  | bz | bnz | bp | bnp | bn | bnn =>
    exact congrArg some ((if_pos h).trans (if_pos h).symm)
  | _ => cases h

/-- The effect of an instruction that stays on the sequential path leaves pc as it finds it. -/
theorem effect_setPc_of_stays {c : Config} {at0 x y : Word} {i : Instr} {a : Arch}
    (h : transfers i a.z a.n a.p = false) (p : Word) :
    effect c at0 i x y (a.setPc p) = (effect c at0 i x y a).map (·.setPc p) := by
  cases i with
  | jump | jal => cases h
  | bz | bnz | bp | bnp | bn | bnn =>
    have stays := Bool.eq_false_iff.1 h
    unfold effect
    rw [if_neg stays]
    exact congrArg some (if_neg stays)
  | load | store =>
    simp only [effect]
    split <;> rfl
  | _ => rfl

/-- Completing from E an instruction that leaves the sequential path does not depend on pc. -/
theorem completeE_setPc_of_transfers {c : Config} {l : Latch} {a : Arch}
    (h : (l.valid && transfers l.instr a.z a.n a.p) = true) (p : Word) :
    completeE c l (a.setPc p) = completeE c l a := by
  obtain ⟨live, taken⟩ := Bool.and_eq_true_iff.1 h
  rw [completeE, completeE, if_pos live, if_pos live, effect_setPc_of_transfers taken]

/-- Completing from E an instruction that stays on the sequential path leaves pc as it finds it. -/
theorem completeE_setPc_of_stays {c : Config} {l : Latch} {a : Arch}
    (h : (l.valid && transfers l.instr a.z a.n a.p) = false) (p : Word) :
    completeE c l (a.setPc p) = (completeE c l a).map (·.setPc p) := by
  cases hv : l.valid with
  | false => simp [completeE, hv]
  | true =>
    rw [hv, Bool.true_and] at h
    rw [completeE, completeE, if_pos hv, if_pos hv, effect_setPc_of_stays h]

/-- Completing from E an instruction that stays on the sequential path does not move pc. -/
theorem completeE_pc_of_stays {c : Config} {l : Latch} {a b : Arch}
    (h : (l.valid && transfers l.instr a.z a.n a.p) = false) (hb : completeE c l a = some b) : b.pc = a.pc := by
  have same := completeE_setPc_of_stays (c := c) h a.pc
  rw [show a.setPc a.pc = a from rfl, hb, Option.map_some] at same
  have same : b = b.setPc a.pc := Option.some.inj same
  rw [same]
  rfl

/-- The effect depends on the operands that the instruction reads alone (R105). -/
theorem effect_congr {c : Config} {at0 x x' y y' : Word} {i : Instr} {a : Arch} (h1 : readsRs1 i.op = true → x = x')
    (h2 : readsRs2 i.op = true → y = y') : effect c at0 i x y a = effect c at0 i x' y' a := by
  cases i with
  | add | sub | and | or | xor | cmp | store =>
    obtain rfl := h1 rfl
    obtain rfl := h2 rfl
    rfl
  | addl | subl | load | jump | jal =>
    obtain rfl := h1 rfl
    rfl
  | _ => rfl

/-! ### What the cycle decodes and fetches -/

/-- The instruction handed on is the instruction that was in the latch. -/
theorem HandedOn.instr {src old new : Latch} (h : HandedOn src old new) (live : src.valid = true) :
    new.instr = src.instr := by
  cases h with
  | instruction _ x y v a => rfl
  | bubble idle => cases live.symm.trans idle

/-- A cycle without a fault: the sub-steps before the fetch, which complete WB, M and E and decode D, and the fetch. -/
theorem cleanCycle_completes {s t : State} (hinv : s.Inv) (h : cleanCycle s t) :
    ∃ d u, OlderStages s d ∧ afterM d = afterE s ∧
      (s.d.stall = false → (flushedD s).valid = true → d.e.instr = (flushedD s).instr) ∧
      fetchStep d = .next u ∧ t = endCycle (hazardCheck u) := by
  obtain ⟨a, b, c, d, u, hw, hm, he, hd, hf, ht⟩ := cleanCycle_subSteps h
  have hc := executeStep_leaves_flushedD hinv.flow hw hm he
  refine ⟨d, u, olderStages hinv.flow hw hm he hd, afterM_olderStages hinv hw hm he hd, fun hs live => ?_, hf, ht⟩
  have moves := decodeStep_moves (by rw [hc]; exact hs) hd
  rw [hc] at moves
  exact moves.handed.instr live

/-- Completing from E the instruction that an unstalled cycle has decoded is completing it from D: the operands decoded
are the registers as the older instructions leave them (R152), but for the hazard of R286. -/
theorem completeE_decoded {s t : State} {x : Arch} (hinv : s.Inv) (h : cleanCycle s t) (hs : s.f.stall = false)
    (hz : loadUseR0 s = false) (hx : afterE s = some x) :
    completeE s.cfg t.e x = completeD s.cfg (flushedD s) x := by
  obtain ⟨d, u, older, _, hinstr, hf, rfl⟩ := cleanCycle_completes hinv h
  have hds := hinv.stallPair.trans hs
  obtain ⟨toE, _, _⟩ := older.free hds
  have sameE : (endCycle (hazardCheck u)).e = d.e := by
    obtain ⟨_, _, _, _, _, rfl⟩ := fetchStep_frame hf
    rfl
  cases hv : (flushedD s).valid with
  | false =>
    rw [sameE, completeE_of_bubble (toE.valid.trans hv), completeD_of_bubble hv]
  | true =>
    obtain ⟨hd, ht⟩ : s.d.valid = true ∧ eTransfers s = false := by simpa [flushedD] using hv
    have hi := hinstr hds hv
    rw [flushedD_of_stay ht] at hi ⊢
    obtain ⟨y, hy, hx⟩ := Option.bind_eq_some_iff.1 hx
    obtain ⟨live, _, pc, h1, h2⟩ := decodedOperandsAreProgramOrderValues s _ y x hinv h hd hs ht hz hy hx
    rw [sameE] at live pc h1 h2 ⊢
    rw [completeE, if_pos live, completeD, if_pos hd, effectInOrder, hi, pc]
    refine effect_congr (fun hr => ?_) fun hr => ?_
    · rw [Latch.instr_op] at hr
      rw [h1 hr, Latch.instr_rs1 hr]
    · rw [Latch.instr_op] at hr
      rw [h2 hr, Latch.instr_rs2 hr]

/-! ### The fetch sub-step -/

/-- A fetch that is disabled or delayed leaves pc and D (R107, R108). -/
theorem fetchStep_waits {s t : State} (hs : s.f.stall = false) (hw : s.f.valid = false ∨ s.redirectPending = true)
    (h : fetchStep s = .next t) : t.pc = s.pc ∧ t.d = s.d := by
  obtain ⟨hstall, _⟩ | ⟨_, _, rfl⟩ | ⟨_, _, _, rfl⟩ | ⟨_, hv, hp, _⟩ := fetchStep_next h
  · cases hs.symm.trans hstall
  · exact ⟨rfl, rfl⟩
  · exact ⟨rfl, rfl⟩
  · rcases hw with hw | hw
    · cases hv.symm.trans hw
    · cases hp.symm.trans hw

/-- A read leaves in D the pc it read at (R110, R112). -/
theorem fetchRead_pcD {s t : State} (h : fetchRead s = .next t) : t.d.pc = s.pc := by
  obtain ⟨r, _, he⟩ := fetchRead_next h
  rw [exec_fetch _ rfl] at he
  cases he
  unfold fetchPart
  split <;> rfl

/-- Completing from D the instruction that was just fetched is the sequential execution of the record at pc. -/
theorem completeD_fetched {c : Config} {code : List Record} {r : Record} {l : Latch} {a : Arch}
    (hr : codeAt c code a.pc = some r) (live : l.valid = (r.op != .nop)) (hi : l.instr = r.instr) (hpc : l.pc = a.pc) :
    completeD c l (a.setPc (nextPc c a.pc)) = sequentialStep c code a := by
  have seq : sequentialStep c code a = effectInOrder c a.pc r.instr (a.setPc (nextPc c a.pc)) := by
    rw [sequentialStep, hr]
    rfl
  rw [seq, completeD, hi, hpc]
  split
  case isTrue => rfl
  case isFalse hv =>
    have ho : r.op = .nop := by simpa [live] using hv
    have hn : r.instr = .nop := by rw [Record.instr, ho]
    rw [hn]
    rfl

/-! ### The front of the pipeline over a cycle -/

/-- The cycle from `s` to `t` reads record `r` at pc: it is in D, or D is empty where it is NOP, and pc has advanced
past it; the instructions that were in WB, M and E have only what M and WB do left to do (R110 to R114). -/
structure ReadsAhead (r : Record) (s t : State) : Prop where
  done : afterM t = (afterE s).map (·.setPc (nextPc s.cfg s.pc))
  pc : ∀ x, afterE s = some x → x.pc = s.pc
  record : codeRead s s.pc = some r
  live : t.d.valid = (r.op != .nop)
  instr : t.d.instr = r.instr
  pcD : t.d.pc = s.pc

/-- What a cycle without a fault from `s` to `t` does at the front of the pipeline, with WB, M and E completed as far as
`t` has not to: it is stalled, its fetch is disabled or delayed, or it reads the record at pc (R106 to R112). -/
inductive CycleFront (s t : State) : Prop where
  | stalled (stall : s.f.stall = true) (done : afterM t = afterE s) (emptyE : t.e.valid = false)
      (kept : ∃ b, t.d = { flushedD s with stall := b })
  | waits (free : s.f.stall = false) (wait : s.f.valid = false ∨ s.redirectPending = true ∨ eTransfers s = true)
      (done : afterM t = afterE s) (emptyD : t.d.valid = false)
  | reads {r : Record} (free : s.f.stall = false) (enabled : s.f.valid = true) (ready : s.redirectPending = false)
      (stays : eTransfers s = false) (ahead : ReadsAhead r s t)

/-- The front of a stalled cycle: E is empty and D is as it was, unless flushed (R106, R115). -/
theorem OlderStages.front_of_stalled {s d u : State} (older : OlderStages s d) (done : afterM d = afterE s)
    (hpair : s.d.stall = s.f.stall) (hs : s.f.stall = true) (hf : fetchStep d = .next u) :
    CycleFront s (endCycle (hazardCheck u)) := by
  obtain ⟨emptyE, hd⟩ := older.stalled (hpair.trans hs)
  cases (fetchStep_stalled (by rw [older.f]; exact hs)).symm.trans hf
  have keptPc := afterM_fetchStep_of_pc hf rfl
  exact .stalled hs (keptPc.trans done) emptyE ⟨_, by rw [← hd]; rfl⟩

/-- The front of a cycle whose fetch is disabled, delayed or redirected: D stays empty (R107, R108, R124). -/
theorem OlderStages.front_of_waits {s d u : State} (older : OlderStages s d) (done : afterM d = afterE s)
    (hpair : s.d.stall = s.f.stall) (hs : s.f.stall = false)
    (hw : s.f.valid = false ∨ s.redirectPending = true ∨ eTransfers s = true) (hf : fetchStep d = .next u) :
    CycleFront s (endCycle (hazardCheck u)) := by
  obtain ⟨_, emptyD, _⟩ := older.free (hpair.trans hs)
  have waits : d.f.valid = false ∨ d.redirectPending = true := by
    rw [older.f, older.pending]
    cases ht : eTransfers s with
    | true => simp
    | false => simpa [ht] using hw
  obtain ⟨hpc, hd⟩ := fetchStep_waits (by rw [older.f]; exact hs) waits hf
  exact .waits hs hw ((afterM_fetchStep_of_pc hf hpc).trans done) (by rw [← emptyD, ← hd]; rfl)

/-- The front of a cycle that reads: the sub-steps before the fetch leave it as it was (R110). -/
theorem OlderStages.front_of_reads {s d u : State} (older : OlderStages s d) (done : afterM d = afterE s)
    (hbtb : ∀ x ∈ s.btb, x.tag = none) (hs : s.f.stall = false) (enabled : s.f.valid = true)
    (ready : s.redirectPending = false) (stays : eTransfers s = false) (hf : fetchStep d = .next u) :
    CycleFront s (endCycle (hazardCheck u)) := by
  have sameF : d.f = s.f := by rw [older.f, stays, Bool.or_false]
  have samePc : d.pc = s.pc := by rw [older.pc, stays]; rfl
  have readyD : d.redirectPending = false := by rw [older.pending, stays, ready]; rfl
  rw [← older.btb] at hbtb
  rw [← sameF] at enabled hs
  have moved := fetchStep_pc hbtb hf
  rw [if_pos ⟨enabled, hs, readyD⟩, older.cfg, samePc] at moved
  have doneT := afterM_fetchStep hf
  rw [moved, done] at doneT
  rw [fetchStep_reads enabled hs readyD hbtb] at hf
  obtain ⟨r, hr, fetched⟩ := fetchRead_fetches enabled hf
  rw [codeRead, older.cfg, older.code, samePc] at hr
  have pc (x : Arch) (hx : afterE s = some x) : x.pc = s.pc := (afterM_steersAs (done.trans hx)).pc.trans samePc
  rw [sameF] at enabled hs
  exact .reads hs enabled ready stays
    ⟨doneT, pc, hr, fetched.live, fetched.instr, (fetchRead_pcD hf).trans samePc⟩

/-- A cycle without a fault has one of the three fronts. -/
theorem cleanCycle_front {s t : State} (hinv : s.Inv) (h : cleanCycle s t) : CycleFront s t := by
  obtain ⟨d, u, older, done, _, hf, rfl⟩ := cleanCycle_completes hinv h
  cases hs : s.f.stall with
  | true => exact older.front_of_stalled done hinv.stallPair hs hf
  | false =>
    by_cases hw : s.f.valid = false ∨ s.redirectPending = true ∨ eTransfers s = true
    · exact older.front_of_waits done hinv.stallPair hs hw hf
    · simp only [not_or, Bool.not_eq_false, Bool.not_eq_true] at hw
      obtain ⟨enabled, ready, stays⟩ := hw
      exact older.front_of_reads done hinv.no_tag hs enabled ready stays hf

/-! ### The cycle and the sequential execution (R222) -/

/-- With E empty there is nothing to complete from it. -/
theorem afterE_of_no_e {s : State} (h : s.e.valid = false) : afterE s = afterM s := by
  rw [afterE, completeE_of_bubble h, Option.bind_fun_some]

/-- With D empty or flushed there is nothing to complete from it. -/
theorem settled_of_no_d {s : State} (h : (flushedD s).valid = false) : settled s = afterE s := by
  rw [settled_eq, completeD_of_bubble h, Option.bind_fun_some]

/-- A cycle keeps the parameters. -/
theorem cleanCycle_cfg {s t : State} (h : cleanCycle s t) : t.cfg = s.cfg := by
  obtain ⟨_, hstep, _⟩ := h
  exact (codeAndBtbNeverChange s t hstep).2.2

/-- A stalled cycle moves only E on, and D waits or is flushed (R149). -/
theorem settled_of_stalled {s t : State} (h : cleanCycle s t) (done : afterM t = afterE s)
    (emptyE : t.e.valid = false) (kept : ∃ b, t.d = { flushedD s with stall := b }) : settled t = settled s := by
  obtain ⟨b, hd⟩ := kept
  rw [settled_eq, settled_eq, afterE_of_no_e emptyE, done, flushedD_of_stay (eTransfers_of_no_e emptyE), hd,
    cleanCycle_cfg h]
  rfl

/-- A cycle that decodes and fetches nothing moves D to E, and leaves no instruction behind it. -/
theorem settled_of_waits {s t : State} (hinv : s.Inv) (h : cleanCycle s t) (hz : loadUseR0 s = false)
    (free : s.f.stall = false) (done : afterM t = afterE s) (emptyD : t.d.valid = false) :
    settled t = settled s := by
  rw [settled_of_no_d (by rw [flushedD, emptyD, Bool.false_and]), afterE, done, settled_eq, cleanCycle_cfg h]
  exact Option.bind_congr fun x hx => completeE_decoded hinv h free hz hx

/-- The test of the transfer in E, by the flags of the software-visible state before it. -/
theorem eTransfers_of_steersAs {s : State} {a : Arch} {p : Word} (h : (a.setPc p).SteersAs s) :
    eTransfers s = (s.e.valid && transfers s.e.instr a.z a.n a.p) := by
  rw [eTransfers, ← h.z, ← h.n, ← h.p]
  rfl

/-- A cycle that reads the record at pc settles as before where the instruction it decoded leaves the sequential path,
which flushes the record, and else as one sequential instruction later. -/
theorem settled_of_reads {s t : State} {r : Record} (hinv : s.Inv) (h : cleanCycle s t) (hz : loadUseR0 s = false)
    (free : s.f.stall = false) (ahead : ReadsAhead r s t) :
    settled t = if eTransfers t then settled s else (settled s).bind (sequentialStep s.cfg s.code) := by
  obtain ⟨done, pc, record, live, instr, pcD⟩ := ahead
  rw [settled_eq s, settled_eq t, afterE, done, cleanCycle_cfg h]
  cases hx : afterE s with
  | none => simp
  | some x =>
    rw [hx, Option.map_some] at done
    have test := eTransfers_of_steersAs (afterM_steersAs done)
    have decoded := completeE_decoded hinv h free hz hx
    rw [Option.map_some, Option.bind_some, Option.bind_some, ← decoded]
    cases ht : eTransfers t with
    | true =>
      rw [completeE_setPc_of_transfers (test.symm.trans ht), completeD_of_bubble (flushedD_of_transfer ht),
        Option.bind_fun_some, if_pos rfl]
    | false =>
      rw [completeE_setPc_of_stays (test.symm.trans ht), flushedD_of_stay ht, if_neg Bool.false_ne_true]
      cases hy : completeE s.cfg t.e x with
      | none => rfl
      | some y =>
        have samePc : s.pc = y.pc := ((completeE_pc_of_stays (test.symm.trans ht) hy).trans (pc x hx)).symm
        rw [samePc] at record pcD ⊢
        exact completeD_fetched record live instr pcD

/-- Settles O50: a cycle is stalled, fetches nothing, or reads the record at pc, and its fetch is on the program's path
exactly if it reads and the instruction just decoded, which is now in E, stays on the sequential path. -/
theorem pipelineRefinesSequentialExecution : Obligations.PipelineRefinesSequentialExecution := by
  intro s t hinv h hz
  cases cleanCycle_front hinv h with
  | stalled stall done emptyE kept =>
    have off : fetchesOnPath s t = false := by simp [fetchesOnPath, stall]
    exact ⟨by simp [off], fun _ => settled_of_stalled h done emptyE kept⟩
  | waits free wait done emptyD =>
    have off : fetchesOnPath s t = false := by
      rcases wait with hw | hw | hw <;> simp [fetchesOnPath, hw]
    exact ⟨by simp [off], fun _ => settled_of_waits hinv h hz free done emptyD⟩
  | reads free enabled ready stays ahead =>
    have on : fetchesOnPath s t = !eTransfers t := by simp [fetchesOnPath, free, enabled, ready, stays]
    have settles := settled_of_reads hinv h hz free ahead
    rw [on, settles]
    cases eTransfers t with
    | true => exact ⟨nofun, fun _ => rfl⟩
    | false => exact ⟨fun _ => rfl, nofun⟩

end Sys2Proof.Machine

/-!
PROOF. The system family of 44_system.md. HALT and NOP differ from an instruction that only passes through in the
sub-steps their rules name: the fetch of both, and the writeback of HALT. Their other parts follow from the mnemonic.
-/

namespace Sys2Proof.Machine

open Sys2Proof.Claims

/-! ### The parts HALT and NOP have of their own -/

/-- The fetch of a HALT hands it to D and disables fetching (R113). -/
theorem exec_fetch_of_halt {i : Instr} {s : State} (ho : i.op = .halt) (hs : s.seq.stage = .fetch) :
    exec i s = .next { fetchHandOff s with f := { s.f with valid := false } } := by
  rw [exec_fetch i hs, fetchPart, ho]

/-- The fetch of a NOP advances pc and leaves its copy in D invalid (R114). -/
theorem exec_fetch_of_nop {i : Instr} {s : State} (ho : i.op = .nop) (hs : s.seq.stage = .fetch) :
    exec i s = .next { fetchHandOff s with d := { s.f with valid := false } } := by
  rw [exec_fetch i hs, fetchPart, ho]

/-- The writeback of a HALT counts it and signals the halt (R133 to R135). -/
theorem exec_writeback_of_halt {i : Instr} {s : State} (ho : i.op = .halt) (hs : s.seq.stage = .writeback) :
    exec i s = .next (signalHalt (retire s)) := by
  rw [exec_writeback i hs, ho]
  rfl

/-! ### The statement -/

/-- Settles O28: the fetch of both and the writeback of HALT are their own; neither transfers nor has a result, a source
or a memory access, so elsewhere they only move on. -/
theorem haltAndNopFollowTheirRules : Obligations.HaltAndNopFollowTheirRules := by
  refine ⟨fun s hs => ⟨?_, ?_⟩, fun s hs => ⟨exec_stays hs rfl rfl, exec_stays hs rfl rfl⟩, fun s hs => ?_,
    readsNone_of_op rfl, passesMemory_of_op nofun nofun, readsNone_of_op rfl, passesMemory_of_op nofun nofun,
    writesNothingBack_of_op rfl nofun⟩
  · exact exec_fetch_of_halt rfl hs
  · exact exec_fetch_of_nop rfl hs
  · exact exec_writeback_of_halt rfl hs

end Sys2Proof.Machine

/-!
PROOF. The faults, the host's operations and the load of 60_exceptions.md: a fault stops the run with the state its
sub-step found, a data fault finds only the writeback sub-step before it, quit and the report read the status, the
decisions of a single-step run matter only where one of them is quit, the trace under the ruling of R44 can be read back
into the state, and what a launch puts into code memory is its words decoded one by one.
-/

namespace Sys2Proof.Machine

open Sys2Proof.Claims

/-! ### A fault ends the cycle and the run (R250 to R252) -/

/-- A step of a running block with a program is its stage sub-steps in order (R100, R262). -/
theorem step_eq_runSubSteps {s : State} (hr : s.status = .running) (hcode : s.code ≠ []) :
    step s = runSubSteps stageOrder s := by
  rw [step, hr, List.isEmpty_eq_false_iff.2 hcode]
  rfl

/-- The sub-step that faults is the cycle's last, and the state it found is the one that stops (R252). -/
theorem runSubSteps_fault {k : Stage} {rest : List Stage} {s : State} {x : Fault} (h : subStep k s = .fault x) :
    runSubSteps (k :: rest) s = .next (stopFaulted x s) := by
  rw [runSubSteps, h]

/-- A fault of the memory sub-step stops the state that the writeback sub-step left. -/
theorem step_of_memoryFault {s a : State} {x : Fault} (hr : s.status = .running) (hcode : s.code ≠ [])
    (hw : writebackStep s = .next a) (hm : memoryStep a = .fault x) : step s = .next (stopFaulted x a) := by
  calc step s
      = runSubSteps stageOrder s := step_eq_runSubSteps hr hcode
    _ = runSubSteps [.memory, .execute, .decode, .fetch] a := runSubSteps_cons hw
    _ = .next (stopFaulted x a) := runSubSteps_fault hm

/-- A fault of the fetch sub-step stops the state that the four sub-steps before it left. -/
theorem step_of_fetchFault {s a b c d : State} {x : Fault} (hr : s.status = .running) (hcode : s.code ≠ [])
    (hw : writebackStep s = .next a) (hm : memoryStep a = .next b) (he : executeStep b = .next c)
    (hd : decodeStep c = .next d) (hf : fetchStep d = .fault x) : step s = .next (stopFaulted x d) := by
  calc step s
      = runSubSteps stageOrder s := step_eq_runSubSteps hr hcode
    _ = runSubSteps [.memory, .execute, .decode, .fetch] a := runSubSteps_cons hw
    _ = runSubSteps [.execute, .decode, .fetch] b := runSubSteps_cons hm
    _ = runSubSteps [.decode, .fetch] c := runSubSteps_cons he
    _ = runSubSteps [.fetch] d := runSubSteps_cons hd
    _ = .next (stopFaulted x d) := runSubSteps_fault hf

/-- A faulted block takes no further cycle (R252). -/
theorem step_stopFaulted (x : Fault) (s : State) : step (stopFaulted x s) = .next (stopFaulted x s) :=
  (endedRunStaysEnded (stopFaulted x s) nofun).1

/-! ### The data fault (R250, R253) -/

/-- An access out of range in M is the memory sub-step's fault, with M's pc, mnemonic and address (R64, R65, R250). -/
theorem memoryStep_of_dataFault {s : State} (hs : s.m.stall = false) (h : dataFaultInM s) :
    memoryStep s = .fault (.dataOutOfRange s.m.pc s.m.op s.m.memoryAddress) := by
  obtain ⟨hv, hop, hrange⟩ := h
  have hout : ¬dataInRange s.cfg s.m.memoryAddress = true := mt dataInRange_iff.1 hrange
  rw [memoryStep, stageStep_live _ _ hv hs]
  rcases hop with ho | ho
  · rw [exec_memory_of_load ((Latch.instr_op s.m).trans ho) rfl]
    exact memoryLoad_of_outOfRange hout
  · rw [exec_memory_of_store ((Latch.instr_op s.m).trans ho) rfl]
    exact memoryStore_of_outOfRange hout

/-- The writeback sub-step always completes when a live WB holds a legal instruction. -/
theorem exists_writebackStep {s : State} (hl : s.wb.legal s.regs.length) : ∃ a, writebackStep s = .next a := by
  cases h : writebackStep s with
  | next a => exact ⟨a, rfl⟩
  | fault x => exact absurd h (writebackStep_ne_fault s x)
  | refused x => exact absurd h (writebackStep_ne_refused hl x)

/-- The writeback sub-step counts the instruction it retires (R133). -/
theorem writebackStep_completed {s t : State} (hs : s.wb.stall = false) (h : writebackStep s = .next t) :
    t.completed = s.completed + (if s.wb.valid then 1 else 0) := by
  cases hv : s.wb.valid with
  | true => rw [writebackStep_live hv hs h, if_pos rfl]
  | false =>
    cases (stageStep_idle .writeback s (.inl hv)).symm.trans h
    rfl

/-! ### Driving a block (R263) -/

/-- A drive that read no quit goes on with the next decision from where the cycle left it. -/
theorem drive_cons_of_go {singleStep q : Bool} {qs : List Bool} {s t : State} (hstep : step s = .next t)
    (hgo : (singleStep && q) = false) : drive singleStep (q :: qs) s = drive singleStep qs t := by
  rw [drive, hstep]
  exact if_neg (Bool.eq_false_iff.1 hgo)

/-- A quit read after a cycle ends the drive with `quit` of the state the cycle gave (R263, R264). -/
theorem drive_cons_of_quit {qs : List Bool} {s t : State} (hstep : step s = .next t) :
    drive true (true :: qs) s = .next (quit t) := by
  rw [drive, hstep]
  rfl

/-- A drive that reaches a state took its first cycle. -/
theorem exists_step_of_drive {singleStep q : Bool} {qs : List Bool} {s t : State}
    (h : drive singleStep (q :: qs) s = .next t) : ∃ u, step s = .next u := by
  cases hstep : step s with
  | next u => exact ⟨u, rfl⟩
  | fault x | refused x => simp [drive, hstep] at h

/-- A run whose first step answers a state goes on from that state. -/
theorem run_succ_of_next (k : Nat) {s t : State} (h : step s = .next t) :
    Host.Core.run Sys2Proof.core (k + 1) s = Host.Core.run Sys2Proof.core k t := by
  simp [Host.Core.run, core, h]

/-- With single-step disabled the drive is the run of as many cycles as there are decisions. -/
theorem drive_off_eq_run (qs : List Bool) (s : State) :
    drive false qs s = Host.Core.run Sys2Proof.core qs.length s := by
  induction qs generalizing s with
  | nil => rfl
  | cons q qs ih =>
    cases h : step s with
    | next t => exact (drive_cons_of_go h rfl).trans ((ih t).trans (run_succ_of_next _ h).symm)
    | fault x => simp [drive, Host.Core.run, core, h]
    | refused x => simp [drive, Host.Core.run, core, h]

/-- While every decision is go, single-step changes nothing. -/
theorem drive_of_all_go (singleStep : Bool) (k : Nat) (s : State) :
    drive singleStep (List.replicate k false) s = drive false (List.replicate k false) s := by
  induction k generalizing s with
  | zero => rfl
  | succ k ih =>
    rw [List.replicate_succ]
    cases h : step s with
    | next t => rw [drive_cons_of_go h (Bool.and_false _), drive_cons_of_go h rfl, ih]
    | fault x | refused x => simp only [drive, h]

/-- Changing the last of the decisions go to quit stops the state which the drive gave. -/
theorem drive_quit_last (k : Nat) {s t : State} (h : drive true (List.replicate (k + 1) false) s = .next t) :
    drive true (List.replicate k false ++ [true]) s = .next (quit t) := by
  obtain ⟨u, hstep⟩ := exists_step_of_drive h
  rw [List.replicate_succ, drive_cons_of_go hstep rfl] at h
  induction k generalizing s u with
  | zero =>
    cases h
    exact drive_cons_of_quit hstep
  | succ k ih =>
    obtain ⟨v, hnext⟩ := exists_step_of_drive h
    rw [List.replicate_succ, drive_cons_of_go hnext rfl] at h
    exact (drive_cons_of_go hstep rfl).trans (ih v h hnext)

/-! ### Reading the trace back (R44, R262) -/

/-- The state between two cycles that a trace of every item shows, for a given program and parameters. -/
def State.ofTrace (cfg : Config) (code : List Record) (v : TraceView) : State :=
  { cfg := cfg
    code := code
    regs := v.regs
    pc := v.pc
    z := v.z
    n := v.n
    p := v.p
    clock := v.clock
    completed := v.completed
    f := v.f
    d := v.d
    e := v.e
    m := v.m
    wb := v.wb
    redirectPending := v.redirectPending.getD false
    btb := v.btb
    dm := v.dm
    status := v.status
    seq := Sequencer.rest }

/-- A state between cycles is read back from its trace. -/
theorem ofTrace_trace {s : State} (h : s.seq = Sequencer.rest) :
    State.ofTrace s.cfg s.code (trace .everyItem s) = s := by
  cases s
  cases h
  rfl

/-! ### The load (R255, R284) -/

/-- A program that decodes is decoded word by word, in program order. -/
theorem forall₂_of_decodeAll {n : Nat} {ws : List CodeWord} {rs : List Record} (h : decodeAll n ws = .ok rs) :
    List.Forall₂ (fun w r => decode n w = .ok r) ws rs := by
  induction ws generalizing rs with
  | nil =>
    cases h
    exact .nil
  | cons w ws ih =>
    rw [decodeAll] at h
    cases hw : decode n w with
    | error x =>
      rw [hw] at h
      cases h
    | ok r =>
      cases hws : decodeAll n ws with
      | error x =>
        rw [hw, hws] at h
        cases h
      | ok rs' =>
        rw [hw, hws] at h
        cases h
        exact .cons hw (ih hws)

/-- A program that loads is not empty, fits the pc range and decodes (R6, R255). -/
theorem loadProgram_ok {c : Config} {ws : List CodeWord} {code : List Record} (h : loadProgram c ws = .ok code) :
    ws ≠ [] ∧ c.fits ws.length = true ∧ decodeAll c.numRegs ws = .ok code := by
  unfold loadProgram at h
  split at h
  case isTrue => cases h
  case isFalse hchecks =>
    simp only [Bool.or_eq_true, List.isEmpty_iff, Bool.not_eq_true', not_or, Bool.not_eq_false] at hchecks
    exact ⟨hchecks.1, hchecks.2, h⟩

/-- A launch that answers a block was given a program, which loads as the code memory of the block (R284). -/
theorem launch_ok {c : Config} {delivered : Option (List CodeWord)} {allocates : Bool} {rInit dmInit : List Word}
    {s : State} (h : launch c delivered allocates rInit dmInit = .ok s) :
    ∃ ws, delivered = some ws ∧ loadProgram c ws = .ok s.code := by
  unfold launch at h
  split at h
  · cases h
  · cases h
  case h_3 ws =>
    split at h
    case h_1 code hload =>
      cases h
      exact ⟨ws, rfl, hload⟩
    case h_2 => cases h

/-- With no program, an empty one or no memory to hold it there is no block, whatever the words are (R255; log 13). -/
theorem launch_constructionFailure (c : Config) {delivered : Option (List CodeWord)} {allocates : Bool}
    (rInit dmInit : List Word) (h : delivered = none ∨ delivered = some [] ∨ allocates = false) :
    launch c delivered allocates rInit dmInit = .error .constructionFailure := by
  rcases h with rfl | rfl | rfl
  · rfl
  · cases allocates <;> rfl
  · cases delivered <;> rfl

/-! ### The statements -/

/-- Settles O46: the writeback sub-step leaves M, so the memory sub-step faults with M's own access, and what stops is
the state with WB retired. -/
theorem dataFaultIsPrecise : Obligations.DataFaultIsPrecise := by
  intro s hinv hr hcode hfault
  obtain ⟨a, hw⟩ := exists_writebackStep (s := s) (hinv.regCount ▸ hinv.legalWb)
  have hregs := writebackStep_completes hinv.noStallWb hw
  have hcompleted := writebackStep_completed hinv.noStallWb hw
  have hwb := writebackStep_empties hinv.noStallWb hw
  obtain ⟨_, _, _, _, rfl⟩ := writebackStep_frame hw
  exact ⟨_, step_of_memoryFault hr hcode hw (memoryStep_of_dataFault hinv.noStallM hfault), rfl, hregs, hcompleted,
    congrArg Latch.valid hwb, rfl, rfl, rfl, rfl, rfl, rfl, rfl, rfl, rfl, rfl⟩

/-- Settles O17, by the two sub-steps that fault; the record is R251's by definition. -/
theorem faultStopsTheRun : Obligations.FaultStopsTheRun :=
  ⟨fun _ _ x hr hcode hw hm => ⟨step_of_memoryFault hr hcode hw hm, step_stopFaulted x _⟩,
    fun _ _ _ _ _ x hr hcode hw hm he hd hf => ⟨step_of_fetchFault hr hcode hw hm he hd hf, step_stopFaulted x _⟩,
    fun _ _ _ _ => ⟨rfl, rfl⟩⟩

/-- Settles O53, by the status that quit and the report read. -/
theorem quitStopsAndReportCounts : Obligations.QuitStopsAndReportCounts := by
  refine ⟨fun s hr => ?_, fun s hh => ?_, fun s x hf => ?_⟩
  · have hquit : quit s = { s with status := .stopped } := by rw [quit, hr]
    exact ⟨by rw [report, hr], hquit, by rw [hquit]; rfl⟩
  · rw [report, faulted, hh]
  · rw [report, faulted, hf]

/-- Settles O54, by the drive without single-step, the one with every decision go, and the one that quits last. -/
theorem singleStepOnlyPaces : Obligations.SingleStepOnlyPaces :=
  fun s => ⟨fun k => drive_of_all_go true k s, fun qs => drive_off_eq_run qs s, fun k _ => drive_quit_last k⟩

/-- Settles O55: the two states are read back from the one trace. -/
theorem traceShowsEveryStateItem : Obligations.TraceShowsEveryStateItem := by
  intro s t hcfg hcode hs ht h
  calc s
      = State.ofTrace s.cfg s.code (trace .everyItem s) := (ofTrace_trace hs).symm
    _ = State.ofTrace t.cfg t.code (trace .everyItem t) := by rw [hcfg, hcode, h]
    _ = t := ofTrace_trace ht

/-- Settles O6: the launched program passed the loader's checks and its records are its words decoded one by one. -/
theorem loadedCodeIsTheDecodedProgram : Obligations.LoadedCodeIsTheDecodedProgram := by
  refine ⟨fun c _ _ rInit dmInit => launch_constructionFailure c rInit dmInit, fun c _ _ _ _ s h => ?_⟩
  obtain ⟨ws, hws, hload⟩ := launch_ok h
  obtain ⟨hne, hfits, hdecode⟩ := loadProgram_ok hload
  have hpairs := forall₂_of_decodeAll hdecode
  refine ⟨ws, hws, hne, hpairs.length_eq.symm, of_decide_eq_true hfits, fun k w hk => ?_⟩
  obtain ⟨hlt, rfl⟩ := List.getElem?_eq_some_iff.1 hk
  have hlt' : k < s.code.length := hpairs.length_eq ▸ hlt
  exact ⟨s.code[k], List.getElem?_eq_getElem hlt', hpairs.get hlt hlt'⟩

end Sys2Proof.Machine

/-!
PROOF. The launch, the hazard of R0 and the last instruction of a run, by 70_reset_and_hazards.md. What a launch creates is
the reset of the decoded program, whose records the decoder checked. A LOAD in E is no forwarding source yet, so a decode
behind it sees what WB and M leave. With fetch disabled a cycle only moves the instructions in flight one stage further, and
what they leave to complete stays the same until they have retired.
-/

namespace Sys2Proof.Machine

open Sys2Proof.Claims

/-! ### The launch (R284) -/

/-- The decoder accepts only legal records (30_encoding.md R86, R89). -/
theorem decode_legal {n : Nat} {w : CodeWord} {r : Record} (h : decode n w = .ok r) : r.instr.wf n = true := by
  obtain ⟨hop, hrsv, hfields⟩ := decode_eq_ok h
  have hop : mnemonicOf (opcField w) = some r.op := hop ▸ mnemonicOf_opc r.op
  rw [decode_of_fields n hop hrsv, ← hfields] at h
  split at h
  case isTrue hwf => exact hwf
  case isFalse => cases h

/-- A decoded program holds only legal records. -/
theorem decodeAll_legal {n : Nat} {ws : List CodeWord} {code : List Record} (h : decodeAll n ws = .ok code) :
    ∀ r ∈ code, r.instr.wf n = true := by
  intro r hr
  have hpairs := forall₂_of_decodeAll h
  obtain ⟨k, hk, rfl⟩ := List.mem_iff_getElem.1 hr
  exact decode_legal (hpairs.get (hpairs.length_eq ▸ hk) hk)

/-- The block that a launch creates is the reset of its code memory (R284). -/
theorem launch_eq_resetWith {c : Config} {delivered : Option (List CodeWord)} {allocates : Bool}
    {rInit dmInit : List Word} {s : State} (h : launch c delivered allocates rInit dmInit = .ok s) :
    s = State.resetWith c s.code rInit dmInit := by
  unfold launch at h
  split at h
  · cases h
  · cases h
  · split at h
    · cases h
      rfl
    · cases h

/-! ### The LOAD into R0 in E (R286) -/

/-- A register that M does not forward is seen through the mux with the instruction in WB completed (R118). -/
theorem fwd_of_not_fromM {s : State} {r : Reg} (hr : r.toNat < s.regs.length) (hM : forwardsFromM s r = false) :
    fwd s r = some ((completeWb s.wb (visible s)).reg r) := by
  rw [fwd, hM, if_neg Bool.false_ne_true]
  split
  case isTrue hf =>
    obtain ⟨hv, hw, rfl⟩ := forwardsFromWb_iff.1 hf
    rw [completeWb, hv, hw, Bool.and_self, if_pos rfl, Arch.reg_setReg_same _ hr]
  case isFalse hf =>
    have kept : (completeWb s.wb (visible s)).reg r = (visible s).reg r := by
      unfold completeWb
      split
      case isTrue hwb =>
        obtain ⟨hv, hw⟩ := Bool.and_eq_true_iff.1 hwb
        exact Arch.reg_setReg_ne _ fun hrd => hf (forwardsFromWb_iff.2 ⟨hv, hw, hrd⟩)
      case isFalse => rfl
    rw [kept]
    exact readReg_of_regs rfl hr

/-- After the memory sub-step, only the instruction in WB is left to complete of those that were in WB and M. -/
theorem afterM_memoryStep {s a b : State} (hinv : s.Inv) (hw : writebackStep s = .next a)
    (hm : memoryStep a = .next b) : afterM s = some (completeWb b.wb (visible b)) := by
  have doneWb := visible_writebackStep hinv.noStallWb hw
  have emptyWb := congrArg Latch.valid (writebackStep_empties hinv.noStallWb hw)
  obtain ⟨_, _, _, _, rfl⟩ := writebackStep_frame hw
  have doneM := completeWb_memoryStep (by exact hinv.noStallM) emptyWb hm
  rw [doneWb] at doneM
  exact doneM

/-- What the decode sub-step of a cycle sees of a register that M does not forward: its value with the instructions in WB
and M completed. -/
theorem fwd_eq_afterM {s a b c : State} {x : Arch} (hinv : s.Inv) (hw : writebackStep s = .next a)
    (hm : memoryStep a = .next b) (he : executeStep b = .next c) (hx : afterM s = some x) {r : Reg}
    (hr : r.toNat < s.cfg.numRegs) (hM : forwardsFromM c r = false) : fwd c r = some (x.reg r) := by
  have hlen := (writebackStep_regs_length hw).trans hinv.regCount
  cases hx.symm.trans (afterM_memoryStep hinv hw hm)
  obtain ⟨_, _, _, _, rfl⟩ := memoryStep_frame hm
  obtain ⟨_, _, _, _, _, _, _, _, _, _, rfl⟩ := executeStep_frame he
  rw [← hlen] at hr
  rw [fwd_of_not_fromM (by exact hr) hM, completeWb_visible, completeWb_visible]
  rfl

/-- The hazard of R286 is a LOAD into R0 in E and a reader of R0 in D. -/
theorem loadUseR0_iff {s : State} :
    loadUseR0 s = true ↔
      s.e.valid = true ∧ s.e.op = .load ∧ s.e.rd = 0 ∧ s.d.valid = true ∧ readsReg s.d 0 = true := by
  simp [loadUseR0, and_assoc]

/-- A LOAD that the execute sub-step hands on to M forwards nothing from there (R120). -/
theorem executeStep_load_not_forwarded {s t : State} (hv : s.e.valid = true) (hs : s.e.stall = false)
    (ho : s.e.op = .load) (h : executeStep s = .next t) (r : Reg) : forwardsFromM t r = false := by
  obtain ⟨_, op, _⟩ := executeStep_result hv hs h
  simp [forwardsFromM, op, ho]

/-- Only the conditional branches, JUMP and JAL leave the sequential path (R210 to R218). -/
theorem op_of_transfers {i : Instr} {z n p : Bool} (h : transfers i z n p = true) :
    isBranch i.op = true ∨ i.op = .jump ∨ i.op = .jal := by
  cases i with
  | bz | bnz | bp | bnp | bn | bnn => exact .inl rfl
  | jump => exact .inr (.inl rfl)
  | jal => exact .inr (.inr rfl)
  | _ => cases h

/-- An instruction of another mnemonic in E stays on the sequential path. -/
theorem eTransfers_of_op {s : State} (hb : isBranch s.e.op = false) (hjump : s.e.op ≠ .jump) (hjal : s.e.op ≠ .jal) :
    eTransfers s = false := by
  refine Bool.eq_false_iff.2 fun ht => ?_
  have hop := op_of_transfers (Bool.and_eq_true_iff.1 ht).2
  rw [Latch.instr_op] at hop
  rcases hop with h | h | h
  · cases hb.symm.trans h
  · exact hjump h
  · exact hjal h

/-! ### A cycle with fetch disabled (R107, R113) -/

/-- Only the writeback sub-step signals a halt (R135). -/
theorem subStep_keeps_haltSeen {k : Stage} {s t : State} (hk : k ≠ .writeback) (h : subStep k s = .next t) :
    t.seq.haltSeen = s.seq.haltSeen := by
  cases k with
  | writeback => exact absurd rfl hk
  | memory =>
    rcases s.m.live_or_idle with ⟨hv, hs⟩ | hi
    · rcases memoryStep_live hv hs h with ⟨_, _, rfl⟩ | ⟨_, _, rfl⟩ | ⟨_, _, rfl⟩ <;> rfl
    · cases (stageStep_idle .memory s hi).symm.trans h
      rfl
  | execute =>
    rcases s.e.live_or_idle with ⟨hv, hs⟩ | hi
    · cases (executeStep_live hv hs).symm.trans h
      obtain ⟨_, _, _, _, _, hr⟩ := executeResult_frame s.e.instr (atStage .execute s)
      rw [executeArm, hr]
      split <;> rfl
    · cases (stageStep_idle .execute s hi).symm.trans h
      rfl
  | decode =>
    rcases s.d.live_or_idle with ⟨hv, hs⟩ | hi
    · obtain ⟨_, _, rfl, _⟩ := decodeStep_live hv hs h
      rfl
    · cases (stageStep_idle .decode s hi).symm.trans h
      rfl
  | fetch =>
    obtain ⟨_, rfl⟩ | ⟨_, _, rfl⟩ | ⟨_, _, _, rfl⟩ | ⟨_, _, _, u, hpredict, hread⟩ := fetchStep_next h
    · rfl
    · rfl
    · rfl
    · obtain ⟨_, rfl⟩ := btbPredictStep_next hpredict
      obtain ⟨r, _, hexec⟩ := fetchRead_next hread
      cases (exec_fetch _ rfl).symm.trans hexec
      obtain ⟨_, _, hpart⟩ := fetchPart_frame r.instr _
      rw [hpart]
      rfl

/-- A cycle without a fault goes on running unless it retires a HALT (R101, R135). -/
theorem cleanCycle_status {s t : State} (hinv : s.Inv) (h : cleanCycle s t) (hwb : ¬s.wb.isHalt) :
    t.status = .running := by
  obtain ⟨a, b, c, d, u, hw, hm, he, hd, hf, rfl⟩ := cleanCycle_subSteps h
  have noHalt : a.seq.haltSeen = false := by
    cases hv : s.wb.valid with
    | true =>
      have hop : s.wb.op ≠ .halt := fun ho => hwb ⟨hv, ho⟩
      rw [writebackStep_live hv hinv.noStallWb hw, hinv.seqRests]
      simpa [Sequencer.rest] using hop
    | false =>
      cases (stageStep_idle .writeback s (.inl hv)).symm.trans hw
      rw [hinv.seqRests]
      rfl
  have kept : u.seq.haltSeen = a.seq.haltSeen :=
    calc u.seq.haltSeen
        = d.seq.haltSeen := subStep_keeps_haltSeen (k := .fetch) nofun hf
      _ = c.seq.haltSeen := subStep_keeps_haltSeen (k := .decode) nofun hd
      _ = b.seq.haltSeen := subStep_keeps_haltSeen (k := .execute) nofun he
      _ = a.seq.haltSeen := subStep_keeps_haltSeen (k := .memory) nofun hm
  have running : u.status = s.status := by
    obtain ⟨_, _, _, _, _, rfl⟩ := fetchStep_frame hf
    exact (olderStages hinv.flow hw hm he hd).status
  rw [endCycle_status, hazardCheck_seq, kept, noHalt, hazardCheck_status, running]
  obtain ⟨hr, _⟩ := h
  exact hr

/-- A cycle without a fault counts itself and the instruction that it retires (R101, R133). -/
theorem cleanCycle_counts {s t : State} (hinv : s.Inv) (h : cleanCycle s t) :
    t.clock = s.clock + 1 ∧ t.completed = s.completed + (if s.wb.valid then 1 else 0) := by
  obtain ⟨hr, hstep, hclean⟩ := h
  obtain ⟨a, hw, _, completed⟩ := (step_cycleRun hr hstep).regs
  exact ⟨(clockCountsCompletedCycles s t hr hstep).1 hclean,
    completed.trans (writebackStep_completed hinv.noStallWb hw)⟩

/-- With fetch disabled, a cycle in which neither E redirects nor M faults completes (R107, R250). -/
theorem exists_cleanCycle_of_disabled {s : State} (hinv : s.Inv) (hr : s.status = .running) (hcode : s.code ≠ [])
    (disabled : s.f.valid = false) (stays : eTransfers s = false) (hdata : ¬dataFaultInM s) :
    ∃ t, cleanCycle s t := by
  obtain ⟨t, hstep⟩ := everyBlockSteps.1 s hinv hcode
  refine ⟨t, hr, hstep, ?_⟩
  cases step_cycleRun hr hstep with
  | dataFault hw hm =>
    obtain ⟨_, _, _, _, rfl⟩ := writebackStep_frame hw
    obtain ⟨⟨liveM, _⟩, hop, hout, _⟩ := memoryStep_fault hm
    exact absurd ⟨liveM, hop, fun hin => by cases (dataInRange_iff.2 hin).symm.trans hout⟩ hdata
  | fetchFault hw hm he hd hf =>
    have older := olderStages hinv.flow hw hm he hd
    obtain ⟨free, _⟩ := fetchStep_fault (older.btb ▸ hinv.no_tag) hf
    cases (fetchStep_disabled free (by rw [older.f, disabled, stays]; rfl)).symm.trans hf
  | completes hw hm he hd hf ht =>
    have running := (olderStages hinv.flow hw hm he hd).status.trans hr
    obtain ⟨_, _, _, _, _, rfl⟩ := fetchStep_frame hf
    rw [ht]
    exact faulted_endCycle running

/-- What WB and M leave to complete can be completed only if no access out of range waits in M. -/
theorem not_dataFaultInM_of_afterM {s : State} {x : Arch} (h : afterM s = some x) : ¬dataFaultInM s := by
  rintro ⟨live, hop, hrange⟩
  have out := mt dataInRange_iff.1 hrange
  rcases hop with ho | ho <;> simp [afterM, completeM, live, ho, out] at h

/-- The cycle from `s` to `t` only drains the pipeline: the instructions in flight are one stage further, no other one is
fetched, and completing those that were in WB, M and E gives `x`. -/
structure Drains (s t : State) (x : Arch) : Prop where
  clean : cleanCycle s t
  inv : t.Inv
  status : t.status = .running
  code : t.code ≠ []
  done : afterM t = some x
  disabled : t.f.valid = false
  emptyD : t.d.valid = false
  toE : Advanced s.d s.e t.e
  toM : Advanced s.e s.m t.m
  toWb : Advanced s.m s.wb t.wb

/-- A running block with fetch disabled, no stall, no transfer and no HALT in WB drains, if WB, M and E can be
completed. -/
theorem exists_drains {s : State} {x : Arch} (hinv : s.Inv) (hr : s.status = .running) (hcode : s.code ≠ [])
    (hwb : ¬s.wb.isHalt) (disabled : s.f.valid = false) (free : s.f.stall = false) (stays : eTransfers s = false)
    (hx : afterE s = some x) : ∃ t, Drains s t x := by
  obtain ⟨y, hy, _⟩ := Option.bind_eq_some_iff.1 hx
  obtain ⟨t, h⟩ := exists_cleanCycle_of_disabled hinv hr hcode disabled stays (not_dataFaultInM_of_afterM hy)
  have hcodeT : t.code ≠ [] := by
    obtain ⟨_, hstep, _⟩ := h
    rwa [(codeAndBtbNeverChange s t hstep).1]
  have inv := cleanCycle_inv hinv h
  have status := cleanCycle_status hinv h hwb
  obtain ⟨d, u, older, done, _, hf, rfl⟩ := cleanCycle_completes hinv h
  have sameF : d.f = s.f := by rw [older.f, stays, Bool.or_false]
  cases (fetchStep_disabled (sameF ▸ free) (sameF ▸ disabled)).symm.trans hf
  obtain ⟨toE, emptyD, _⟩ := older.free (hinv.stallPair.trans free)
  exact ⟨_, {
    clean := h
    inv := inv
    status := status
    code := hcodeT
    done := done.trans hx
    disabled := (congrArg Latch.valid sameF).trans disabled
    emptyD := emptyD
    toE := flushedD_of_stay stays ▸ toE
    toM := older.m
    toWb := older.wb }⟩

/-- There is nothing to complete from E for a HALT (R240). -/
theorem completeE_of_halt {c : Config} {l : Latch} (h : l.op = .halt) : completeE c l = some := by
  have hi : l.instr = .halt := by rw [Latch.instr, Record.instr, h]
  funext x
  rw [completeE, hi]
  exact ite_self _

/-- A drained block goes on draining while E holds nothing but a HALT and WB holds none. -/
theorem Drains.next {s t : State} {x : Arch} (h : Drains s t x) (hwb : ¬t.wb.isHalt)
    (he : t.e.valid = true → t.e.op = .halt) : ∃ u, Drains t u x := by
  have stays : eTransfers t = false := by
    refine Bool.eq_false_iff.2 fun ht => ?_
    obtain ⟨live, hop⟩ := eTransfers_live ht
    exact hop (he live)
  have free : t.f.stall = false := h.inv.stallIsHazard.trans (hazardCondition_of_no_d h.emptyD)
  have keeps : completeE t.cfg t.e = some := by
    cases hv : t.e.valid with
    | true => exact completeE_of_halt (he hv)
    | false => exact completeE_of_bubble hv
  have done : afterE t = some x := by rw [afterE, h.done, keeps]; rfl
  exact exists_drains h.inv h.status h.code hwb h.disabled free stays done

/-- A HALT handed on is a HALT, with its pc. -/
theorem Advanced.isHalt {src old new : Latch} (h : Advanced src old new) (hsrc : src.isHalt) :
    new.isHalt ∧ new.pc = src.pc := by
  obtain ⟨live, hop⟩ := hsrc
  exact ⟨⟨h.valid.trans live, (h.op live).trans hop⟩, by rw [h.pc, if_pos live]⟩

/-- With M empty and no register writer in WB there is nothing to complete from them. -/
theorem afterM_eq_visible {s : State} (hm : s.m.valid = false) (hwb : (s.wb.valid && isWriter s.wb.op) = false) :
    afterM s = some (visible s) := by
  simp [afterM, completeM, completeWb, hm, hwb]

/-! ### The last instruction of a run and the HALT behind it (R293) -/

/-- A HALT in D stalls nothing: it reads no register (R105, R136). -/
theorem State.Inv.unstalled_of_haltD {s : State} (h : s.Inv) (hd : s.d.isHalt) : s.f.stall = false := by
  obtain ⟨_, ho⟩ := hd
  rw [h.stallIsHazard]
  simp [hazardCondition, readsReg, ho, readsRs1, readsRs2]

/-- With the HALT in D, an instruction in E that stays on the sequential path, and M and WB empty, three cycles drain the
pipeline: the HALT follows the instruction at a distance of one stage. -/
theorem exists_three_drains {s : State} {x : Arch} (hinv : s.Inv) (hr : s.status = .running) (hcode : s.code ≠ [])
    (hd : s.d.isHalt) (hm : s.m.valid = false) (hwb : s.wb.valid = false) (stays : eTransfers s = false)
    (hx : afterE s = some x) : ∃ t1 t2 t3, Drains s t1 x ∧ Drains t1 t2 x ∧ Drains t2 t3 x := by
  obtain ⟨t1, h1⟩ := exists_drains hinv hr hcode (Latch.not_isHalt_of_bubble hwb) (hinv.haltD hd)
    (hinv.unstalled_of_haltD hd) stays hx
  obtain ⟨haltE, _⟩ := h1.toE.isHalt hd
  have noHaltWb1 : ¬t1.wb.isHalt := Latch.not_isHalt_of_bubble (h1.toWb.valid.trans hm)
  obtain ⟨t2, h2⟩ := h1.next noHaltWb1 fun _ => haltE.2
  obtain ⟨haltM, _⟩ := h2.toM.isHalt haltE
  have noHaltWb2 : ¬t2.wb.isHalt := fun hhalt => by
    obtain ⟨_, _, _, emptyM⟩ := h2.inv.haltWb hhalt
    exact Latch.not_isHalt_of_bubble emptyM haltM
  have emptyE := h2.toE.valid.trans h1.emptyD
  obtain ⟨t3, h3⟩ := h2.next noHaltWb2 fun live => by cases live.symm.trans emptyE
  exact ⟨t1, t2, t3, h1, h2, h3⟩

section ThreeDrains

variable {s t1 t2 t3 : State} {x : Arch} (h1 : Drains s t1 x) (h2 : Drains t1 t2 x) (h3 : Drains t2 t3 x)
include h1 h2 h3

/-- Three draining cycles are a run of three steps. -/
theorem Drains.run_three : Host.Core.run Sys2Proof.core 3 s = .next t3 := by
  obtain ⟨_, step1, _⟩ := h1.clean
  obtain ⟨_, step2, _⟩ := h2.clean
  obtain ⟨_, step3, _⟩ := h3.clean
  rw [run_succ_of_next 2 step1, run_succ_of_next 1 step2, run_succ_of_next 0 step3]
  rfl

/-- Three draining cycles count themselves and retire the instructions that were in WB, M and E. -/
theorem Drains.counts_three (hinv : s.Inv) :
    t3.clock = s.clock + 3 ∧
      t3.completed = s.completed + (if s.wb.valid then 1 else 0) + (if s.m.valid then 1 else 0) +
        (if s.e.valid then 1 else 0) := by
  obtain ⟨clock1, count1⟩ := cleanCycle_counts hinv h1.clean
  obtain ⟨clock2, count2⟩ := cleanCycle_counts h1.inv h2.clean
  obtain ⟨clock3, count3⟩ := cleanCycle_counts h2.inv h3.clean
  rw [h1.toWb.valid] at count2
  rw [h2.toWb.valid, h1.toM.valid] at count3
  exact ⟨by omega, by rw [count3, count2, count1]⟩

/-- Three draining cycles bring the HALT that was in D to WB, and leave nothing behind it. -/
theorem Drains.halt_in_wb (hd : s.d.isHalt) :
    t3.wb.isHalt ∧ t3.wb.pc = s.d.pc ∧ t3.m.valid = false ∧ t3.e.valid = false := by
  obtain ⟨haltE, pcE⟩ := h1.toE.isHalt hd
  obtain ⟨haltM, pcM⟩ := h2.toM.isHalt haltE
  obtain ⟨haltWb, pcWb⟩ := h3.toWb.isHalt haltM
  have emptyE := h2.toE.valid.trans h1.emptyD
  exact ⟨haltWb, pcWb.trans (pcM.trans pcE), h3.toM.valid.trans emptyE, h3.toE.valid.trans h2.emptyD⟩

end ThreeDrains

/-! ### The statements -/

/-- Settles O9: what a launch creates is the reset of a program that fits and that the decoder checked record by record. -/
theorem launchedBlockSatisfiesInvariant : Obligations.LaunchedBlockSatisfiesInvariant := by
  intro cfg delivered allocates rInit dmInit s hcfg h
  obtain ⟨ws, _, hload⟩ := launch_ok h
  obtain ⟨_, hfits, hdecode⟩ := loadProgram_ok hload
  have sameLength := (forall₂_of_decodeAll hdecode).length_eq
  rw [launch_eq_resetWith h]
  exact resetWith_inv rInit dmInit hcfg (sameLength ▸ hfits) (decodeAll_legal hdecode)

/-- Settles O49: a destination R0 is no hazard, so D is decoded behind the LOAD, which M does not forward. -/
theorem loadIntoR0GivesTheOldValue : Obligations.LoadIntoR0GivesTheOldValue := by
  intro s t x hinv hclean hz hx
  obtain ⟨liveE, load, dest, liveD, reads⟩ := loadUseR0_iff.1 hz
  have free : s.f.stall = false := by
    rw [hinv.stallIsHazard]
    simp [hazardCondition, dest]
  have stays : eTransfers s = false := eTransfers_of_op (by rw [load]; rfl) (by rw [load]; nofun) (by rw [load]; nofun)
  obtain ⟨a, b, c, d, u, hw, hm, he, hd, hf, rfl⟩ := cleanCycle_subSteps hclean
  have value : fwd c 0 = some (x.reg 0) := by
    have sameE : b.e = s.e := by
      obtain ⟨_, _, _, _, _, _, rfl⟩ := memoryStep_after_writeback_frame hw hm
      rfl
    have inFile : (0 : Reg).toNat < s.cfg.numRegs := dest ▸ hinv.legalE.rd_lt liveE (by rw [load]; rfl)
    rw [← sameE] at liveE load
    exact fwd_eq_afterM hinv hw hm he hx inFile
      (executeStep_load_not_forwarded liveE (sameE ▸ hinv.noStallE) load he 0)
  have sameD : c.d = s.d := (executeStep_leaves_flushedD hinv.flow hw hm he).trans (flushedD_of_stay stays)
  have live : c.d.valid = true := sameD ▸ liveD
  have op : c.d.op = s.d.op := congrArg Latch.op sameD
  obtain ⟨x1, x2, rfl, h1, h2⟩ := decodeStep_live live (sameD ▸ hinv.stallPair.trans free) hd
  obtain ⟨_, _, _, _, _, rfl⟩ := fetchStep_frame hf
  rw [sameD] at h1 h2
  refine ⟨free, live, op, fun hr1 h0 => ?_, fun hr2 h0 => ?_⟩
  · exact Option.some.inj ((h1 hr1).symm.trans (h0 ▸ value))
  · exact Option.some.inj ((h2 hr2).symm.trans (h0 ▸ value))

/-- Settles O52: three cycles drain the pipeline, so that the instruction has retired with its effect and the HALT, now in
WB, leaves the software-visible state as it is; retiring it is the fourth (O45). -/
theorem loneInstructionRetiresWithItsEffect : Obligations.LoneInstructionRetiresWithItsEffect := by
  intro s x hinv hr hcode liveD haltD liveE emptyM emptyWb stays hx
  have done : afterE s = some x := by
    rw [afterE, afterM_eq_visible emptyM (by rw [emptyWb, Bool.false_and]), Option.bind_some, completeE, if_pos liveE]
    exact hx
  obtain ⟨t1, t2, t3, h1, h2, h3⟩ := exists_three_drains hinv hr hcode ⟨liveD, haltD⟩ emptyM emptyWb
    (by rw [eTransfers, stays, Bool.and_false]) done
  obtain ⟨⟨liveWb3, haltWb3⟩, pcWb3, emptyM3, emptyE3⟩ := Drains.halt_in_wb h1 h2 h3 ⟨liveD, haltD⟩
  obtain ⟨clock, count⟩ := Drains.counts_three h1 h2 h3 hinv
  have count : t3.completed = s.completed + 1 := by simpa [emptyM, emptyWb, liveE] using count
  have seen : visible t3 = x := by
    have left := afterM_eq_visible emptyM3 (by rw [haltWb3]; exact Bool.and_false _)
    exact Option.some.inj (left.symm.trans h3.done)
  exact ⟨t3, _, Drains.run_three h1 h2 h3, seen, clock, count, h3.status, h3.disabled, h3.emptyD, emptyE3, emptyM3,
    liveWb3, haltWb3, pcWb3, retiringHaltEndsTheRun t3 h3.inv h3.status h3.code liveWb3 haltWb3, seen,
    congrArg (· + 1) clock, congrArg (· + 1) count, rfl, rfl⟩

end Sys2Proof.Machine
